-- ==== Sys2Proof/Word.lean ====
section
/-! DEFINITION. The two word types of the block: the 32-bit register word (10_state.md R22) and the unsigned 8-bit
byte of the three memories and of the link (10_state.md R40). -/

namespace Sys2Proof

/-- A 32-bit register word (10_state.md R22). -/
abbrev Word := BitVec 32

/-- An unsigned 8-bit byte (10_state.md R40). -/
abbrev Byte := BitVec 8

end Sys2Proof
end

