-- ==== Sys2Proof/Syntax.lean ====
section
/-! DEFINITION. The instructions: one constructor per row of spec/opcode_table.json (30_encoding.md R80-R87), and the
packets that carry them, one constructor per format of 30_encoding.md R80. -/

namespace Sys2Proof

/-- The three byte memories (10_state.md R40, 20_memory.md R60). Selector 3 names no space. -/
inductive Space where
  | mosaic
  | rgb
  | frame
deriving DecidableEq, Repr

/-- One constructor per row of spec/opcode_table.json.
The ten commands carry no operand (30_encoding.md R81): every operand is read from the registers. -/
inductive Instr where
  /-- `NOP`, 44_capture_control.md R202. -/
  | nop
  /-- `DEMOSAIC`, 43_demosaic.md R170. -/
  | demosaic
  /-- `PARSE`, 42_parse.md R140. -/
  | parse
  /-- `ACCUMULATE`, 41_accumulate.md R120. -/
  | accumulate
  /-- `SEND_REQUEST`, 40_link_request.md R106. -/
  | sendRequest
  /-- `LINK_RESET`, 40_link_request.md R104. -/
  | linkReset
  /-- `CAPTURE`, 44_capture_control.md R205. -/
  | capture
  /-- `LINK_OPEN`, 40_link_request.md R102. -/
  | linkOpen
  /-- `LINK_CLOSE`, 40_link_request.md R103. -/
  | linkClose
  /-- `ABORT`, 44_capture_control.md R204. -/
  | abort
  /-- `RR`, host register read, 20_memory.md R66. -/
  | rr (index : BitVec 4)
  /-- `RW`, host register write, 20_memory.md R67. -/
  | rw (index : BitVec 4) (data : Word)
  /-- `MR`, host byte read, 20_memory.md R64. -/
  | mr (space : Space) (addr : BitVec 18)
  /-- `MW`, host byte write, 20_memory.md R65. -/
  | mw (space : Space) (addr : BitVec 18) (data : Byte)
  /-- `REQUEST`, the 2-byte request on the wire, 30_encoding.md R86 and 40_link_request.md R105. The two members are
  signed 8-bit values, carried as two's-complement bytes (30_encoding.md R89). -/
  | request (opcode param : Byte)
  /-- `RESPONSE`, the response on the wire, 30_encoding.md R87. -/
  | response (mode width height : Byte) (mosaic : List Byte)
deriving DecidableEq, Repr

/-- The four formats of 30_encoding.md R80, each with the bits that travel. -/
inductive Packet where
  /-- `CMD`: a 32-bit word the host writes to register `CMD`. -/
  | cmd (v : Word)
  /-- `HOST`: a 64-bit host transaction descriptor. -/
  | host (t : BitVec 64)
  /-- `REQ16`: the request, byte 0 in bits 15:8. -/
  | req16 (w : BitVec 16)
  /-- `RESP`: the response's bytes in arrival order. -/
  | resp (bytes : List Byte)
deriving DecidableEq, Repr

end Sys2Proof
end

