-- ==== Sys2Proof/WellFormed.lean ====
section
/-! DEFINITION. Which terms of `Instr` are instructions of the block. The types of the operands already rule out a
fourth memory space, a register index above 15 and an address above 18 bits; the one relation between operands is the
length of a response (30_encoding.md R87). -/

namespace Sys2Proof

/-- Well-formedness: a `RESPONSE` carries exactly `width * height` samples (30_encoding.md R87). -/
def Instr.wellFormed : Instr → Bool
  | .nop => true
  | .demosaic => true
  | .parse => true
  | .accumulate => true
  | .sendRequest => true
  | .linkReset => true
  | .capture => true
  | .linkOpen => true
  | .linkClose => true
  | .abort => true
  | .rr _ => true
  | .rw _ _ => true
  | .mr _ _ => true
  | .mw _ _ _ => true
  | .request _ _ => true
  | .response _ width height mosaic => mosaic.length == width.toNat * height.toNat

end Sys2Proof
end

