-- ==== Sys2Proof/Decode.lean ====
section
/-! DEFINITION. The decoder, total on every packet and rejecting by name, and after it the encoder, both written from
30_encoding.md R81-R88. -/

namespace Sys2Proof

/-- Why a packet is no instruction. -/
inductive DecodeError where
  /-- A reserved command word: `v[31:8] != 0` or `v[7:0]` in 0x0A..0xFF (30_encoding.md R83). -/
  | illegalCommand (v : Word)
  /-- A descriptor that is not well formed (30_encoding.md R85). -/
  | malformedDescriptor (t : BitVec 64)
  /-- Bytes that are not `[mode][width][height]` and `width*height` samples (30_encoding.md R87). -/
  | malformedResponse (bytes : List Byte)
deriving DecidableEq, Repr

/-- The opcode map (30_encoding.md R82). -/
def commandOfOp (op : Byte) : Option Instr :=
  match op.toNat with
  | 0x00 => some .nop
  | 0x01 => some .demosaic
  | 0x02 => some .parse
  | 0x03 => some .accumulate
  | 0x04 => some .sendRequest
  | 0x05 => some .linkReset
  | 0x06 => some .capture
  | 0x07 => some .linkOpen
  | 0x08 => some .linkClose
  | 0x09 => some .abort
  | _ => none

/-- Decoding a command word, total on all 2^32 values (30_encoding.md R88). -/
def decodeCommand (v : Word) : Option Instr :=
  if v.extractLsb' 8 24 = 0 then commandOfOp (v.extractLsb' 0 8) else none

/-- The `SPACE` selector of a descriptor (30_encoding.md R84); selector 3 names none. -/
def spaceOfSelector (sel : BitVec 2) : Option Space :=
  match sel.toNat with
  | 0 => some .mosaic
  | 1 => some .rgb
  | 2 => some .frame
  | _ => none

/-- Decoding a host transaction descriptor: its fields (30_encoding.md R84) and what makes it not well formed
(30_encoding.md R85). -/
def decodeHost (t : BitVec 64) : Option Instr :=
  let kind := t.extractLsb' 62 2
  let sel := t.extractLsb' 60 2
  let zero := t.extractLsb' 56 4
  let addr := t.extractLsb' 32 24
  let data := t.extractLsb' 0 32
  if zero ≠ 0 then none
  else match kind.toNat with
    | 0 => if sel = 0 ∧ addr.extractLsb' 4 20 = 0 ∧ data = 0 then some (.rr (addr.extractLsb' 0 4)) else none
    | 1 => if sel = 0 ∧ addr.extractLsb' 4 20 = 0 then some (.rw (addr.extractLsb' 0 4) data) else none
    | 2 =>
      if addr.extractLsb' 18 6 = 0 ∧ data = 0 then
        (spaceOfSelector sel).map fun space => .mr space (addr.extractLsb' 0 18)
      else none
    | _ =>
      if addr.extractLsb' 18 6 = 0 ∧ data.extractLsb' 8 24 = 0 then
        (spaceOfSelector sel).map fun space => .mw space (addr.extractLsb' 0 18) (data.extractLsb' 0 8)
      else none

/-- Decoding a response: positionally, and of exactly the length its header declares (30_encoding.md R87). -/
def decodeResponse : List Byte → Option Instr
  | mode :: width :: height :: mosaic =>
    if mosaic.length = width.toNat * height.toNat then some (.response mode width height mosaic) else none
  | _ => none

/-- The decoder. Every 16-bit value is a request (30_encoding.md R86). -/
def decode : Packet → Except DecodeError Instr
  | .cmd v =>
    match decodeCommand v with
    | some i => .ok i
    | none => .error (.illegalCommand v)
  | .host t =>
    match decodeHost t with
    | some i => .ok i
    | none => .error (.malformedDescriptor t)
  | .req16 w => .ok (.request (w.extractLsb' 8 8) (w.extractLsb' 0 8))
  | .resp bytes =>
    match decodeResponse bytes with
    | some i => .ok i
    | none => .error (.malformedResponse bytes)

/-- The selector of a space (10_state.md R40). -/
def Space.selector : Space → BitVec 2
  | .mosaic => 0
  | .rgb => 1
  | .frame => 2

/-- A descriptor from its fields (30_encoding.md R84). -/
def hostWord (kind sel : BitVec 2) (addr : BitVec 24) (data : Word) : BitVec 64 :=
  kind ++ sel ++ (0 : BitVec 4) ++ addr ++ data

/-- The encoder (30_encoding.md R82, R84, R86, R87). -/
def encode : Instr → Packet
  | .nop => .cmd 0x00000000
  | .demosaic => .cmd 0x00000001
  | .parse => .cmd 0x00000002
  | .accumulate => .cmd 0x00000003
  | .sendRequest => .cmd 0x00000004
  | .linkReset => .cmd 0x00000005
  | .capture => .cmd 0x00000006
  | .linkOpen => .cmd 0x00000007
  | .linkClose => .cmd 0x00000008
  | .abort => .cmd 0x00000009
  | .rr index => .host (hostWord 0 0 (index.setWidth 24) 0)
  | .rw index data => .host (hostWord 1 0 (index.setWidth 24) data)
  | .mr space addr => .host (hostWord 2 space.selector (addr.setWidth 24) 0)
  | .mw space addr data => .host (hostWord 3 space.selector (addr.setWidth 24) (data.setWidth 32))
  | .request opcode param => .req16 (opcode ++ param)
  | .response mode width height mosaic => .resp (mode :: width :: height :: mosaic)

/-- The `n` bytes of a number from its least significant byte on. -/
def bytesOfNat (w : Nat) : Nat → List Byte
  | 0 => []
  | n + 1 => BitVec.ofNat 8 w :: bytesOfNat (w / 256) n

/-- The packet that `nbits` bits of `w` are (30_encoding.md R80): 16 bits are a request, 32 a command word, 64 a
descriptor; any other width is a response, whose length its own header bytes declare, every byte above the given
ones 0. Log entry 22. -/
def packetOfTable (nbits w : Nat) : Packet :=
  if nbits = 16 then .req16 (BitVec.ofNat 16 w)
  else if nbits = 32 then .cmd (BitVec.ofNat 32 w)
  else if nbits = 64 then .host (BitVec.ofNat 64 w)
  else
    let w := w % 2 ^ nbits
    .resp (bytesOfNat w (3 + (w / 256 % 256) * (w / 65536 % 256)))

/-- The instruction the decoder reads from an opcode-table row's bits. -/
def decodeTableWord (nbits w : Nat) : Option Instr :=
  match decode (packetOfTable nbits w) with
  | .ok i => some i
  | .error _ => none

end Sys2Proof
end

