-- ==== Sys2Proof/Config.lean ====
section
/-! DEFINITION. What the spec fixes as a parameter of the block (00_scope.md R6, R7), and the free values: constants
with no body, one for each kind of `draw` (00_scope.md R11). Nothing can be proved about a free value but what holds
of every value. -/

namespace Sys2Proof

/-- `MOSAIC_CAP = 255*255` (00_scope.md R6). -/
def Config.mosaicCap : Nat := 65025

/-- `RGB_CAP = 3*65025` (00_scope.md R6). -/
def Config.rgbCap : Nat := 195075

/-- `FRAME_CAP = 3 + 65025` (00_scope.md R6). -/
def Config.frameCap : Nat := 65028

/-- `TARGET_PATTERN`, the OPEN reset value of `CFG_DEMOSAIC.PATTERN`, in 0..3 (00_scope.md R7). Log entry 2. -/
opaque Config.targetPattern : Fin 4

/-- What a byte of a memory holds at power-on: a draw per byte (70_reset_and_hazards.md R261). Log entry 1. -/
opaque Config.powerOnByte : Space → Nat → Byte

/-- What a host `MemRead` of a space the running command writes returns: a draw (20_memory.md R71). Log entry 3. -/
opaque Config.busyByte : Nat → Byte

/-- Whether the link answers `ok` to an open, reset, write or flush (40_link_request.md R100). Log entry 4. -/
opaque Config.linkOk : Nat → Bool

/-- Whether the link answers `fail` to a read (40_link_request.md R100). Log entry 4. -/
opaque Config.linkReadFails : Nat → Bool

/-- The bytes the device holds at a read for which the state does not say it, given those queued in it: any bytes, since
the link is unreliable (40_link_request.md R100). Log entry 4. -/
opaque Config.linkHeld : Nat → List Byte → List Byte

/-- What the device holds after a reset or a read that it answered `fail` (40_link_request.md R100, 10_state.md R46).
Log entry 28. -/
opaque Config.linkLeft : Nat → List Byte

/-- How many of the bytes the device holds such a read is given, before the bounds are taken
(40_link_request.md R100, 30_encoding.md R87). Log entries 4 and 14. -/
opaque Config.linkCount : Nat → Nat

end Sys2Proof
end

