-- ==== Sys2Proof/Machine/State.lean ====
section
/-! DEFINITION. The state of the block as plain data, the reasons a step can stop, and the state at power-on reset.
INVENTORY.md lists every field with the rule of spec/ that names it. -/

namespace Sys2Proof.Machine

open Sys2Proof

/-- The agents of 00_scope.md R3. -/
inductive Agent where
  | host
  | engine
  | link
deriving DecidableEq, Repr

/-- The values of `STATUS.ERR` (60_exceptions.md R230); codes 8..15 are never written and have no name. -/
inductive ErrCode where
  | none
  | deviceUnavailable
  | acquisitionTimeout
  | malformedFrame
  | unsupportedPattern
  | illegalCommand
  | bufferOverflow
  | aborted
deriving DecidableEq, Repr

/-- The values of `STATUS.SEQ_STATE` (10_state.md R31); codes 11..15 are reserved and have no name. -/
inductive SeqState where
  | idle
  | commandSent
  | accumulating
  | headerParsed
  | demosaiced
  /-- Reserved: never written by the block (44_capture_control.md R213). -/
  | persisted
  | timeout
  | malformedFrame
  | deviceUnavailable
  | unsupportedPattern
  | aborted
deriving DecidableEq, Repr

/-- `CFG_DEMOSAIC.BORDER` (10_state.md R33). -/
inductive Border where
  | mirror
  | clamp
deriving DecidableEq, Repr

/-- `CFG_DEMOSAIC.ROUND` (10_state.md R33). -/
inductive Rounding where
  | halfUp
  | trunc
deriving DecidableEq, Repr

/-- `CFG_ACC.LENGTH_POLICY` (10_state.md R34). -/
inductive LengthPolicy where
  | configured
  | headerFirst
deriving DecidableEq, Repr

/-- `CAP_PHASE`, the stage a CAPTURE takes next (10_state.md R45, 44_capture_control.md R205). -/
inductive CapPhase where
  | check
  | openLink
  | resetLink
  | sendRequest
  | accInit
  | accRead
  | parse
  | demosaic
deriving DecidableEq, Repr

/-- `STATUS`, register 1 (10_state.md R25). -/
structure Status where
  busy : Bool
  done : Bool
  ignored : Bool
  linkOpen : Bool
  err : ErrCode
  lastOp : Byte
  seqState : SeqState
deriving DecidableEq, Repr

/-- A width and a height: the fields of `CFG_DIM` (10_state.md R32) and of `OUT_DIM` (10_state.md R43). -/
structure Dim where
  width : Byte
  height : Byte
deriving DecidableEq, Repr

/-- `CFG_DEMOSAIC`, register 3 (10_state.md R33). A pattern above 3 is stored as written (10_state.md R23). -/
structure CfgDemosaic where
  pattern : Byte
  border : Border
  rounding : Rounding
deriving DecidableEq, Repr

/-- `CFG_ACC`, register 4 (10_state.md R34). -/
structure CfgAcc where
  maxAttempts : BitVec 16
  lengthPolicy : LengthPolicy
deriving DecidableEq, Repr

/-- `HDR`, register 9 (10_state.md R39). -/
structure Hdr where
  mode : Byte
  width : Byte
  height : Byte
  valid : Bool
deriving DecidableEq, Repr

/-- `REQ`, register 10 (10_state.md R41). -/
structure Req where
  opcode : Byte
  param : Byte
deriving DecidableEq, Repr

/-- A byte memory: the bytes that a write since power-on has defined, as cells at strictly rising addresses.
An address that is not listed has no value of its own; the machine then reads the power-on draw
(70_reset_and_hazards.md R261). Log entry 1. -/
abbrev Memory := List Host.Cell

/-- The canonical form of a memory: addresses strictly rising, so equal contents are equal lists. -/
abbrev Memory.wf (m : Memory) : Prop := m.Pairwise fun a b => a.1 < b.1

/-- Every listed address of a memory is below the size of its space (20_memory.md R61). -/
abbrev Memory.within (m : Memory) (size : Nat) : Prop := ∀ c ∈ m, c.1 < size

/-- The operations the engine issues on the link port (40_link_request.md R100). -/
inductive LinkOp where
  | linkOpen
  | linkClose
  | linkReset
  | linkWrite (bytes : List Byte)
  | linkFlush
  | linkRead (r : Nat)
deriving DecidableEq, Repr

/-- What the link does at a read of the engine, where the state says it (40_link_request.md R100). Log entry 4. -/
inductive RxItem where
  /-- The read answers `fail`. -/
  | fail
  /-- These bytes have come in behind the bytes queued in the device, which are as they came: the read is given what the
  device then holds, at most as many bytes as it asks for. -/
  | chunk (bytes : List Byte)
  /-- The device holds these bytes when the read is answered, whatever was queued: bytes of an unreliable link may have
  been lost, altered or added. The read is given them, at most as many bytes as it asks for. -/
  | altered (held : List Byte)
deriving DecidableEq, Repr

/-- One entry of the total order of 20_memory.md R72. -/
inductive Event where
  /-- A packet travels: a host transaction, or one of the two wire formats (30_encoding.md R80). -/
  | packet (p : Packet)
  /-- The engine takes its enabled step, if it has one (44_capture_control.md R216). -/
  | engine
  /-- The platform asserts reset (70_reset_and_hazards.md R260). -/
  | reset
deriving DecidableEq, Repr

/-- Why a step stops the machine. -/
inductive Fault where
  /-- Raised by `step` alone, when `BUSY = 1` and `CUR_OP` names no command with an engine step: the engine then has
  no stage to take (44_capture_control.md R216) and is stuck. No run from reset gets there (`Safety.Inv`). Safe: the
  model stops where the spec describes no behaviour. Log entry 16. -/
  | noStage
deriving DecidableEq, Repr

/-- Why a step has no meaning. -/
inductive Refusal where
  /-- An arm of `exec` without a meaning. No arm answers it: every instruction is modelled. Safe. -/
  | notModelled (mnemonic : String)
  /-- Raised by `step` alone, for a host descriptor that is not well formed: it has no meaning and the machine never
  sees it (30_encoding.md R85). Safe. Log entry 15. -/
  | malformedDescriptor
deriving DecidableEq, Repr

/-- The state of the block, of its ports, and of the order in which its agents move. -/
structure State where
  -- The registers (10_state.md R22). CMD, index 0, stores nothing (10_state.md R24).
  /-- Index 1. -/
  status : Status
  /-- Index 2. -/
  cfgDim : Dim
  /-- Index 3. -/
  cfgDemosaic : CfgDemosaic
  /-- Index 4. -/
  cfgAcc : CfgAcc
  /-- Index 5 (10_state.md R35). -/
  accExpected : Word
  /-- Index 6 (10_state.md R36). -/
  accCount : Word
  /-- Index 7 (10_state.md R37). -/
  accAttempts : Word
  /-- Index 8 (10_state.md R38). -/
  frameLen : Word
  /-- Index 9. -/
  hdr : Hdr
  /-- Index 10. -/
  req : Req
  /-- Index 11 (10_state.md R42). -/
  errInfo0 : Word
  /-- Index 12 (10_state.md R42). -/
  errInfo1 : Word
  /-- Index 13. -/
  outDim : Dim
  -- The three byte memories (10_state.md R40).
  mosaic : Memory
  rgb : Memory
  frame : Memory
  -- The hidden state of 10_state.md R45.
  curOp : Byte
  capPhase : CapPhase
  openedHere : Bool
  accMax : BitVec 16
  accHdrPending : Bool
  -- The model's own fields: no rule of spec/ names them.
  /-- Set once a standalone ACCUMULATE has taken its start step (44_capture_control.md R216). Log entry 8. -/
  accStarted : Bool
  /-- The word the last host read returned (30_encoding.md R84). Log entry 11. -/
  hostReply : Word
  /-- The bytes the request encoder last computed (40_link_request.md R105). Log entry 13. -/
  encoded : List Byte
  /-- Every operation issued on the link port, oldest first. Log entry 12. -/
  linkLog : List LinkOp
  /-- The link's answers to its next opens, resets, writes and flushes, `true` for `ok`. Log entry 4. -/
  linkAcks : List Bool
  /-- What the link does at its next reads. Log entry 4. -/
  linkRx : List RxItem
  /-- The bytes queued in the serial device: they came in and no read has brought them yet, oldest first (10_state.md
  R46, 41_accumulate.md R122). What a read brings need not be they (40_link_request.md R100). Log entries 5 and 14. -/
  linkQueue : List Byte
  /-- How many draws were taken; the free values of `Config` are read at it. Log entry 4. -/
  draws : Nat
  /-- The events to come, in their total order (20_memory.md R72). Log entry 6. -/
  schedule : List Event
  /-- The agent whose event is being taken (00_scope.md R3). Log entry 7. -/
  turn : Agent
deriving DecidableEq, Repr

/-- The state right after power-on reset (70_reset_and_hazards.md R260, R261): every register and all hidden state at
the value the spec states, no byte of memory defined by a write. The model's own fields start empty (log entry 25). -/
def State.reset : State where
  status :=
    { busy := false, done := false, ignored := false, linkOpen := false, err := .none, lastOp := 0, seqState := .idle }
  cfgDim := { width := 160, height := 120 }
  cfgDemosaic :=
    { pattern := BitVec.ofNat 8 Config.targetPattern.val, border := .mirror, rounding := .halfUp }
  cfgAcc := { maxAttempts := 100, lengthPolicy := .configured }
  accExpected := 0
  accCount := 0
  accAttempts := 0
  frameLen := 0
  hdr := { mode := 0, width := 0, height := 0, valid := false }
  req := { opcode := 0xB7, param := 0x00 }
  errInfo0 := 0
  errInfo1 := 0
  outDim := { width := 0, height := 0 }
  mosaic := []
  rgb := []
  frame := []
  curOp := 0
  capPhase := .check
  openedHere := false
  accMax := 0
  accHdrPending := false
  accStarted := false
  hostReply := 0
  encoded := []
  linkLog := []
  linkAcks := []
  linkRx := []
  linkQueue := []
  draws := 0
  schedule := []
  turn := .host

end Sys2Proof.Machine
end

