-- ==== Sys2Proof/Machine/Ops.lean ====
section
/-! DEFINITION. The named operations every meaning is written over: the byte memories, the link port, the end of a
command with its error record (the block's only form of taking an exception, 60_exceptions.md R233, R236), the clean-up
and failure of a CAPTURE, and reset. -/

namespace Sys2Proof.Machine

open Sys2Proof

/-! ### Byte memories -/

/-- The size of a space in bytes (10_state.md R40). 20_memory.md R61 gives the valid addresses as `0 .. size-1` and then
ends MOSAIC's at 0xFDFF (65023), one short of its size; the model keeps the size, so that address 0xFE00 (65024) is
valid. DESIGN CHOICE, log entry 27. -/
def spaceSize : Space → Nat
  | .mosaic => Config.mosaicCap
  | .rgb => Config.rgbCap
  | .frame => Config.frameCap

/-- The byte a write has defined at an address, if one has. -/
def Memory.read? : Memory → Nat → Option Byte
  | [], _ => none
  | (a, v) :: m, x => if x = a then some v else Memory.read? m x

/-- The cells of consecutive bytes from an address on. -/
def Memory.cells : Nat → List Byte → Memory
  | _, [] => []
  | base, b :: bs => (base, b) :: Memory.cells (base + 1) bs

/-- The one write of the model: consecutive bytes from `base` on replace what stood there. -/
def Memory.writeBlock (m : Memory) (base : Nat) (bs : List Byte) : Memory :=
  m.filter (fun c => c.1 < base) ++ Memory.cells base bs ++ m.filter (fun c => base + bs.length ≤ c.1)

/-- The memory of a space. -/
def State.memory (s : State) : Space → Memory
  | .mosaic => s.mosaic
  | .rgb => s.rgb
  | .frame => s.frame

/-- One byte of a space: what was written there, else the power-on draw (70_reset_and_hazards.md R261). -/
def State.peek (s : State) (space : Space) (addr : Nat) : Byte :=
  ((s.memory space).read? addr).getD (Config.powerOnByte space addr)

/-- `n` consecutive bytes of a space. -/
def State.peekBlock (s : State) (space : Space) (base n : Nat) : List Byte :=
  (List.range n).map fun i => s.peek space (base + i)

/-- Consecutive bytes of a space written. -/
def State.poke (s : State) (space : Space) (base : Nat) (bs : List Byte) : State :=
  match space with
  | .mosaic => { s with mosaic := s.mosaic.writeBlock base bs }
  | .rgb => { s with rgb := s.rgb.writeBlock base bs }
  | .frame => { s with frame := s.frame.writeBlock base bs }

/-! ### The end of a command and its error record -/

/-- `finish(code, info0, info1)` (00_scope.md R10): the record of an error is what it writes, and control goes
nowhere (60_exceptions.md R233, R236). -/
def State.finish (s : State) (code : ErrCode) (info0 info1 : Word) : State :=
  { s with
    status := { s.status with err := code, busy := false, done := true }
    errInfo0 := info0
    errInfo1 := info1 }

/-- `finish_ok()` (00_scope.md R10). -/
def State.finishOk (s : State) : State := s.finish .none 0 0

/-- `SEQ_STATE` written. -/
def State.setSeq (s : State) (q : SeqState) : State := { s with status := { s.status with seqState := q } }

/-! ### The link port (40_link_request.md R100) -/

/-- One operation issued on the link port. -/
def State.issueLink (s : State) (op : LinkOp) : State := { s with linkLog := s.linkLog ++ [op] }

/-- An operation that the link answers `ok` (`true`) or `fail`: `LinkOpen`, `LinkReset`, `LinkWrite`, `LinkFlush`.
The answer is the next one lined up in the state, else a free value. Log entry 4. -/
def State.linkAck (s : State) (op : LinkOp) : Bool × State :=
  match s.linkAcks with
  | answer :: rest => (answer, { s.issueLink op with linkAcks := rest })
  | [] => (Config.linkOk s.draws, { s.issueLink op with draws := s.draws + 1 })

/-- A reset or a read that the link answers `fail`: what the device then holds is free. Log entry 28. -/
def State.linkFailed (s : State) : State := { s with linkQueue := Config.linkLeft s.draws, draws := s.draws + 1 }

/-- `LinkReset()` and what its answer does: `ok` (`true`) discards the bytes queued in the device, and the block sets
`FRAME_LEN` to 0; `fail` leaves `FRAME_LEN`, and what the device then holds is free (40_link_request.md R100, R104,
44_capture_control.md R208). Log entry 28. -/
def State.resetLink (s : State) : Bool × State :=
  match s.linkAck .linkReset with
  | (false, s1) => (false, s1.linkFailed)
  | (true, s1) => (true, { s1 with linkQueue := [], frameLen := 0 })

/-- The answer of a read that does not fail, from what the device then holds: the oldest `n` bytes, or all there are. The
others stay queued (41_accumulate.md R122). Log entry 5. -/
def State.giveHeld (s : State) (held : List Byte) (n : Nat) : Option (List Byte) × State :=
  (some (held.take n), { s with linkQueue := held.drop n })

/-- `LinkRead(r)`: `none` for `fail`, else a chunk of at most `r` bytes, each byte any value (40_link_request.md R100,
R108). Where the state does not say what the link does, whether the read fails, what the device holds and how much of it
is given are free. Log entries 4, 5 and 14. -/
def State.linkRead (s : State) (r : Nat) : Option (List Byte) × State :=
  let s1 := s.issueLink (.linkRead r)
  match s.linkRx with
  | .fail :: rest => (none, { s1 with linkRx := rest }.linkFailed)
  | .chunk bytes :: rest => { s1 with linkRx := rest }.giveHeld (s.linkQueue ++ bytes) r
  | .altered held :: rest => { s1 with linkRx := rest }.giveHeld held r
  | [] =>
    let s2 := { s1 with draws := s.draws + 1 }
    if Config.linkReadFails s.draws then (none, s2.linkFailed)
    else s2.giveHeld (Config.linkHeld s.draws s.linkQueue) (min (Config.linkCount s.draws) r)

/-- `LinkClose()`, which always completes, and `STATUS.LINK_OPEN <- 0` (40_link_request.md R103). -/
def State.closeLink (s : State) : State :=
  { s.issueLink .linkClose with status := { s.status with linkOpen := false } }

/-! ### The end of a CAPTURE (44_capture_control.md R209) -/

/-- The capture clean-up: a link that this CAPTURE opened is closed. -/
def State.captureCleanUp (s : State) : State :=
  if s.openedHere then { s.closeLink with openedHere := false } else s

/-- The terminal `SEQ_STATE` of each error that ends a CAPTURE. The other three codes end none
(60_exceptions.md R231) and leave `SEQ_STATE` as it was. -/
def failureSeq (code : ErrCode) (before : SeqState) : SeqState :=
  match code with
  | .acquisitionTimeout => .timeout
  | .malformedFrame => .malformedFrame
  | .deviceUnavailable => .deviceUnavailable
  | .unsupportedPattern => .unsupportedPattern
  | .aborted => .aborted
  | .none => before
  | .illegalCommand => before
  | .bufferOverflow => before

/-- `fail_capture(code, i0, i1)`. -/
def State.failCapture (s : State) (code : ErrCode) (info0 info1 : Word) : State :=
  let s1 := s.captureCleanUp
  (s1.setSeq (failureSeq code s1.status.seqState)).finish code info0 info1

/-! ### Reset -/

/-- The platform's reset: registers and hidden state as at power-on, the three memories unchanged, an open link closed
(70_reset_and_hazards.md R260-R262). What the ports carry, what is queued in the device and what is still to come is no
state of the block and stays; the next `LinkReset` discards the queued bytes. Log entry 20. -/
def State.platformReset (s : State) : State :=
  { State.reset with
    mosaic := s.mosaic
    rgb := s.rgb
    frame := s.frame
    hostReply := s.hostReply
    encoded := s.encoded
    linkLog := if s.status.linkOpen then s.linkLog ++ [.linkClose] else s.linkLog
    linkAcks := s.linkAcks
    linkRx := s.linkRx
    linkQueue := s.linkQueue
    draws := s.draws
    schedule := s.schedule
    turn := s.turn }

end Sys2Proof.Machine
end

