-- ==== Sys2Proof/Machine/Flags.lean ====
section
/-! DEFINITION. The flags of 10_state.md R47 and the codes of `STATUS`: their bits in the register word, the issue
bookkeeping that clears them, and the flag a dropped write leaves. -/

namespace Sys2Proof.Machine

open Sys2Proof

/-- The codes of `STATUS.ERR` (60_exceptions.md R230). -/
def ErrCode.code : ErrCode → BitVec 4
  | .none => 0
  | .deviceUnavailable => 1
  | .acquisitionTimeout => 2
  | .malformedFrame => 3
  | .unsupportedPattern => 4
  | .illegalCommand => 5
  | .bufferOverflow => 6
  | .aborted => 7

/-- The codes of `STATUS.SEQ_STATE` (10_state.md R31). -/
def SeqState.code : SeqState → BitVec 4
  | .idle => 0
  | .commandSent => 1
  | .accumulating => 2
  | .headerParsed => 3
  | .demosaiced => 4
  | .persisted => 5
  | .timeout => 6
  | .malformedFrame => 7
  | .deviceUnavailable => 8
  | .unsupportedPattern => 9
  | .aborted => 10

/-- The `STATUS` register word (10_state.md R25). -/
def Status.word (f : Status) : Word :=
  (0 : BitVec 12) ++ SeqState.code f.seqState ++ f.lastOp ++ ErrCode.code f.err ++
    BitVec.ofBool f.linkOpen ++ BitVec.ofBool f.ignored ++ BitVec.ofBool f.done ++ BitVec.ofBool f.busy

/-- Issue bookkeeping, run for every write of `v` to `CMD` made while idle other than ABORT
(44_capture_control.md R201). -/
def State.bookkeep (s : State) (v : Word) : State :=
  { s with
    status := { s.status with lastOp := v.extractLsb' 0 8, err := .none, ignored := false, seqState := .idle }
    errInfo0 := 0
    errInfo1 := 0 }

/-- A host write dropped while `BUSY = 1`: nothing changes but `STATUS.IGNORED <- 1` (20_memory.md R71). -/
def State.dropWrite (s : State) : State := { s with status := { s.status with ignored := true } }

end Sys2Proof.Machine
end

