-- ==== Sys2Proof/Machine/Operands.lean ====
section
/-! DEFINITION. The operand forms: every register as the host reads and writes it by its index (10_state.md R22), the
signed bytes of a request (00_scope.md R8), and the operands a command reads from the registers. -/

namespace Sys2Proof.Machine

open Sys2Proof

/-! ### One-bit fields -/

/-- `CFG_DEMOSAIC.BORDER`: 0 = MIRROR, 1 = CLAMP (10_state.md R33). -/
def Border.ofBit (b : Bool) : Border := if b then .clamp else .mirror

/-- The bit of `CFG_DEMOSAIC.BORDER`. -/
def Border.bit : Border → Bool
  | .mirror => false
  | .clamp => true

/-- `CFG_DEMOSAIC.ROUND`: 0 = HALF_UP, 1 = TRUNC (10_state.md R33). -/
def Rounding.ofBit (b : Bool) : Rounding := if b then .trunc else .halfUp

/-- The bit of `CFG_DEMOSAIC.ROUND`. -/
def Rounding.bit : Rounding → Bool
  | .halfUp => false
  | .trunc => true

/-- `CFG_ACC.LENGTH_POLICY`: 0 = CONFIGURED, 1 = HEADER_FIRST (10_state.md R34). -/
def LengthPolicy.ofBit (b : Bool) : LengthPolicy := if b then .headerFirst else .configured

/-- The bit of `CFG_ACC.LENGTH_POLICY`. -/
def LengthPolicy.bit : LengthPolicy → Bool
  | .configured => false
  | .headerFirst => true

/-! ### Register words: reserved bits read 0 (10_state.md R23) -/

/-- `CFG_DIM` (10_state.md R32) and `OUT_DIM` (10_state.md R43). -/
def Dim.word (d : Dim) : Word := (0 : BitVec 16) ++ d.height ++ d.width

/-- `CFG_DEMOSAIC` (10_state.md R33). -/
def CfgDemosaic.word (c : CfgDemosaic) : Word :=
  (0 : BitVec 22) ++ BitVec.ofBool (Rounding.bit c.rounding) ++ BitVec.ofBool (Border.bit c.border) ++ c.pattern

/-- `CFG_ACC` (10_state.md R34). -/
def CfgAcc.word (c : CfgAcc) : Word :=
  (0 : BitVec 15) ++ BitVec.ofBool (LengthPolicy.bit c.lengthPolicy) ++ c.maxAttempts

/-- `HDR` (10_state.md R39). -/
def Hdr.word (h : Hdr) : Word :=
  (0 : BitVec 7) ++ BitVec.ofBool h.valid ++ h.height ++ h.width ++ h.mode

/-- `REQ` (10_state.md R41). -/
def Req.word (r : Req) : Word := (0 : BitVec 16) ++ r.param ++ r.opcode

/-- `RegRead(i)` (20_memory.md R66): `CMD` and the reserved indices 14 and 15 read 0. -/
def State.regRead (s : State) (index : BitVec 4) : Word :=
  match index.toNat with
  | 1 => Status.word s.status
  | 2 => Dim.word s.cfgDim
  | 3 => CfgDemosaic.word s.cfgDemosaic
  | 4 => CfgAcc.word s.cfgAcc
  | 5 => s.accExpected
  | 6 => s.accCount
  | 7 => s.accAttempts
  | 8 => s.frameLen
  | 9 => Hdr.word s.hdr
  | 10 => Req.word s.req
  | 11 => s.errInfo0
  | 12 => s.errInfo1
  | 13 => Dim.word s.outDim
  | _ => 0

/-- The effect of a register write other than a write to `CMD`, while idle: each defined field of an RW register takes
the same bits of `v`; a write to an RO register or a reserved index has no effect (20_memory.md R67, 10_state.md R23). -/
def State.setRegister (s : State) (index : BitVec 4) (v : Word) : State :=
  match index.toNat with
  | 2 => { s with cfgDim := { width := v.extractLsb' 0 8, height := v.extractLsb' 8 8 } }
  | 3 =>
    { s with
      cfgDemosaic :=
        { pattern := v.extractLsb' 0 8
          border := Border.ofBit (v.getLsbD 8)
          rounding := Rounding.ofBit (v.getLsbD 9) } }
  | 4 =>
    { s with
      cfgAcc :=
        { maxAttempts := v.extractLsb' 0 16
          lengthPolicy := LengthPolicy.ofBit (v.getLsbD 16) } }
  | 5 => { s with accExpected := v }
  | 10 => { s with req := { opcode := v.extractLsb' 0 8, param := v.extractLsb' 8 8 } }
  | _ => s

/-! ### The request (40_link_request.md R105) -/

/-- `s8(b)`: the byte read as two's complement (00_scope.md R8). -/
def s8 (b : Byte) : Int := if b.toNat < 128 then b.toNat else (b.toNat : Int) - 256

/-- `u8(s)`: the byte of a signed value (00_scope.md R8). -/
def u8 (v : Int) : Byte := BitVec.ofNat 8 (v % 256).toNat

/-- `encode(opc, param)`: the opcode byte first (40_link_request.md R105). -/
def encodeRequest (opc param : Int) : List Byte := [u8 opc, u8 param]

/-- The request encoder run: its output is what it computes, and nothing else changes (40_link_request.md R105).
Log entry 13. -/
def State.runEncoder (s : State) (opc param : Int) : State := { s with encoded := encodeRequest opc param }

/-! ### Operands of the running command -/

/-- `writes_of(op)`: whether the running command writes a space (20_memory.md R71). -/
def writesSpace (op : Byte) (space : Space) : Bool :=
  match op.toNat, space with
  | 0x01, .rgb => true
  | 0x02, .mosaic => true
  | 0x03, .frame => true
  | 0x06, _ => true
  | _, _ => false

/-- The bytes still missing from the accumulation window, `r = ACC_EXPECTED - ACC_COUNT` (41_accumulate.md R122). -/
def State.missing (s : State) : Nat := s.accExpected.toNat - s.accCount.toNat

/-- The space left in `FRAME`, `FRAME_CAP - FRAME_LEN`, as a register word (41_accumulate.md R121). -/
def State.frameRoom (s : State) : Word := BitVec.ofNat 32 Config.frameCap - s.frameLen

end Sys2Proof.Machine
end

