-- ==== Sys2Proof/Machine/Control.lean ====
section
/-! DEFINITION. Command issue and dispatch, ABORT and the register write that carries every command word
(44_capture_control.md R200-R204, 20_memory.md R67), with the meanings of NOP and ABORT. -/

namespace Sys2Proof.Machine

open Sys2Proof

/-- The end of dispatch for a command with engine steps (44_capture_control.md R200). `accStarted` is the model's own
(log entry 8). -/
def State.accept (s : State) (v : Word) : State :=
  { s with
    curOp := v.extractLsb' 0 8
    status := { s.status with busy := true, done := false }
    accStarted := false }

/-- What dispatch adds for CAPTURE (44_capture_control.md R200). -/
def State.startCapture (s : State) : State :=
  { s with capPhase := .check, openedHere := false, accHdrPending := false }

/-- A write of `v` to `CMD` while `BUSY = 0`: idle ABORT has no effect, an illegal word is rejected, NOP completes at
once, any other command is accepted (44_capture_control.md R200-R203). -/
def State.issue (s : State) (v : Word) : State :=
  match decodeCommand v with
  | none => (s.bookkeep v).finish .illegalCommand v 0
  | some .abort => s
  | some .nop => (s.bookkeep v).finishOk
  | some .capture => ((s.bookkeep v).accept v).startCapture
  | some _ => (s.bookkeep v).accept v

/-- The diagnostic words of an ABORT (44_capture_control.md R204). -/
def State.abortInfo (s : State) : Word × Word :=
  if s.curOp = 0x03 ∨ s.curOp = 0x06 then (s.accCount, s.accExpected) else (0, 0)

/-- ABORT while `BUSY = 1` (44_capture_control.md R204). A running CAPTURE is cleaned up and leaves `SEQ_STATE` at
ABORTED, as every failure of a CAPTURE does (44_capture_control.md R209). -/
def State.abortRunning (s : State) : State :=
  let (info0, info1) := s.abortInfo
  if s.curOp = 0x06 then s.failCapture .aborted info0 info1 else s.finish .aborted info0 info1

/-- `RegWrite(i, v)` (20_memory.md R67). -/
def State.regWrite (s : State) (index : BitVec 4) (v : Word) : State :=
  if s.status.busy then
    if index = 0 ∧ v = 0x00000009 then s.abortRunning else s.dropWrite
  else if index = 0 then s.issue v
  else s.setRegister index v

/-- The two events that are one command instruction: written to `CMD` as its word `v` by the host
(30_encoding.md R80, R81), and taken by the engine as its next stage (44_capture_control.md R216). Log entry 7. -/
def State.asCommand (s : State) (v : Word) (stage : State → State) : State :=
  if s.turn = .engine then stage s else s.regWrite 0 v

/-- `NOP` (44_capture_control.md R202): it completes at issue and has no engine step. -/
def execNop (s : State) : Host.Outcome State Fault Refusal := .next (s.regWrite 0 0x00000000)

/-- `ABORT` (44_capture_control.md R204): it takes effect in the write itself, between two engine steps. -/
def execAbort (s : State) : Host.Outcome State Fault Refusal := .next (s.regWrite 0 0x00000009)

end Sys2Proof.Machine
end

