-- ==== Sys2Proof/Machine/Link.lean ====
section
/-! DEFINITION. The link commands and the two wire formats (40_link_request.md R101-R106, 30_encoding.md R86, R87). -/

namespace Sys2Proof.Machine

open Sys2Proof

/-- A command that needs the link ends with DEVICE_UNAVAILABLE; `linkop` names the operation: 1 open, 2 reset,
3 write or flush, 4 read (40_link_request.md R101). -/
def State.linkUnavailable (s : State) (linkop : Word) : State := s.finish .deviceUnavailable linkop s.frameLen

/-- The engine step of LINK_OPEN (40_link_request.md R102). -/
def State.linkOpenStage (s : State) : State :=
  if s.status.linkOpen then s.finishOk
  else match s.linkAck .linkOpen with
    | (false, s1) => s1.linkUnavailable 1
    | (true, s1) => { s1 with status := { s1.status with linkOpen := true } }.finishOk

/-- The engine step of LINK_CLOSE (40_link_request.md R103). -/
def State.linkCloseStage (s : State) : State :=
  if s.status.linkOpen then s.closeLink.finishOk else s.finishOk

/-- The engine step of LINK_RESET: the device's queue and `FRAME` are emptied (40_link_request.md R104). -/
def State.linkResetStage (s : State) : State :=
  if s.status.linkOpen then
    match s.resetLink with
    | (false, s1) => s1.linkUnavailable 2
    | (true, s1) => s1.finishOk
  else s.linkUnavailable 2

/-- The request of `REQ` encoded, written and flushed; the flush is not issued when the write fails
(40_link_request.md R106, 44_capture_control.md R208). `true` when the link answered `ok` to both. -/
def State.sendBytes (s : State) : Bool × State :=
  let s1 := s.runEncoder (s8 s.req.opcode) (s8 s.req.param)
  match s1.linkAck (.linkWrite s1.encoded) with
  | (false, s2) => (false, s2)
  | (true, s2) => s2.linkAck .linkFlush

/-- The engine step of SEND_REQUEST (40_link_request.md R106). -/
def State.sendRequestStage (s : State) : State :=
  if s.status.linkOpen then
    match s.sendBytes with
    | (false, s1) => s1.linkUnavailable 3
    | (true, s1) => s1.finishOk
  else s.linkUnavailable 3

/-- `LINK_OPEN` (40_link_request.md R102). -/
def execLinkOpen (s : State) : Host.Outcome State Fault Refusal := .next (s.asCommand 0x00000007 State.linkOpenStage)

/-- `LINK_CLOSE` (40_link_request.md R103). -/
def execLinkClose (s : State) : Host.Outcome State Fault Refusal := .next (s.asCommand 0x00000008 State.linkCloseStage)

/-- `LINK_RESET` (40_link_request.md R104). -/
def execLinkReset (s : State) : Host.Outcome State Fault Refusal := .next (s.asCommand 0x00000005 State.linkResetStage)

/-- `SEND_REQUEST` (40_link_request.md R106). -/
def execSendRequest (s : State) : Host.Outcome State Fault Refusal :=
  .next (s.asCommand 0x00000004 State.sendRequestStage)

/-- `REQUEST` (40_link_request.md R105): the encoder computes the two bytes of the request and nothing else changes.
SEND_REQUEST and CAPTURE send what it computes. Log entry 13. -/
def execRequest (opcode param : Byte) (s : State) : Host.Outcome State Fault Refusal :=
  .next (s.runEncoder (s8 opcode) (s8 param))

/-- Bytes the device holds for the block: they reach it only as the answers of its reads (40_link_request.md R108). -/
def State.lineUp (s : State) (bytes : List Byte) : State := { s with linkQueue := s.linkQueue ++ bytes }

/-- `RESPONSE` (30_encoding.md R87): the response's bytes are queued in the device. The reads of ACCUMULATE and CAPTURE
bring them into `FRAME` in arrival order, unless the link loses or alters them (40_link_request.md R100), and `LinkReset`
discards those still queued. Log entry 14. -/
def execResponse (mode width height : Byte) (mosaic : List Byte) (s : State) : Host.Outcome State Fault Refusal :=
  .next (s.lineUp (mode :: width :: height :: mosaic))

end Sys2Proof.Machine
end

