-- ==== Sys2Proof/Machine/Accumulate.lean ====
section
/-! DEFINITION. The serial accumulator (41_accumulate.md). -/

namespace Sys2Proof.Machine

open Sys2Proof

/-- Bytes received: appended to `FRAME` in arrival order and counted (41_accumulate.md R123, R127). -/
def State.receive (s : State) (chunk : List Byte) : State :=
  { s.poke .frame s.frameLen.toNat chunk with
    frameLen := s.frameLen + BitVec.ofNat 32 chunk.length
    accCount := s.accCount + BitVec.ofNat 32 chunk.length }

/-- One read counted, empty or not (41_accumulate.md R123). -/
def State.countRead (s : State) : State := { s with accAttempts := s.accAttempts + 1 }

/-- One read step up to the header hook (41_accumulate.md R123): `true` when the read answered anything but `fail`. -/
def State.readStep (s : State) : Bool × State :=
  match s.linkRead s.missing with
  | (none, s1) => (false, s1.countRead)
  | (some chunk, s1) => (true, s1.countRead.receive chunk)

/-- The accumulation counters cleared and the budget latched (41_accumulate.md R121, 44_capture_control.md R210). -/
def State.clearCounters (s : State) : State :=
  { s with accCount := 0, accAttempts := 0, accMax := s.cfgAcc.maxAttempts }

/-- The start step of ACCUMULATE, its checks in the order of 41_accumulate.md R121. -/
def State.accumulateStart (s : State) : State :=
  if s.status.linkOpen then
    if Config.frameCap < s.accExpected.toNat + s.frameLen.toNat then
      s.finish .bufferOverflow s.accExpected s.frameRoom
    else
      let s1 := s.clearCounters
      if s1.accExpected = 0 then s1.finishOk
      else if s1.accMax = 0 then s1.finish .acquisitionTimeout 0 s1.accExpected
      else { s1 with accStarted := true }
  else s.linkUnavailable 4

/-- The budget is spent: `ACC_ATTEMPTS = ACC_MAX` (41_accumulate.md R124). -/
def State.budgetSpent (s : State) : Bool := s.accAttempts == s.accMax.setWidth 32

/-- A read step of ACCUMULATE with its completion test, success first (41_accumulate.md R123, R124, R126). -/
def State.accumulateRead (s : State) : State :=
  match s.readStep with
  | (false, s1) => s1.linkUnavailable 4
  | (true, s1) =>
    if s1.accCount = s1.accExpected then s1.finishOk
    else if s1.budgetSpent then s1.finish .acquisitionTimeout s1.accCount s1.accExpected
    else s1

/-- The engine step of ACCUMULATE: the start step once, then read steps (44_capture_control.md R216). -/
def State.accumulateStage (s : State) : State :=
  if s.accStarted then s.accumulateRead else s.accumulateStart

/-- `ACCUMULATE` (41_accumulate.md R120). -/
def execAccumulate (s : State) : Host.Outcome State Fault Refusal := .next (s.asCommand 0x00000003 State.accumulateStage)

/-- The header hook (41_accumulate.md R132): once the 3 header bytes have arrived, the window is extended by the
payload they declare. It reads the header just received (log entry 10). -/
def State.headerHook (s : State) : State :=
  if s.accHdrPending ∧ s.accCount = 3 then
    { s with
      accHdrPending := false
      accExpected := BitVec.ofNat 32 (3 + (s.peek .frame 1).toNat * (s.peek .frame 2).toNat) }
  else s

end Sys2Proof.Machine
end

