-- ==== Sys2Proof/Machine/Demosaic.lean ====
section
/-! DEFINITION. The demosaic unit (43_demosaic.md). -/

namespace Sys2Proof.Machine

open Sys2Proof

/-- The colour channels (00_scope.md R12). -/
inductive Channel where
  | r
  | g
  | b
deriving DecidableEq, Repr

/-- The four 2×2 layouts (43_demosaic.md R160). -/
inductive Layout where
  | rggb
  | grbg
  | gbrg
  | bggr
deriving DecidableEq, Repr

/-- The classes of a site for a channel (43_demosaic.md R162). -/
inductive SiteClass where
  | own
  | cross
  | diag
  | lineH
  | lineV
deriving DecidableEq, Repr

/-- The layout of a pattern code; codes 4..255 are unsupported (43_demosaic.md R160). -/
def layoutOfPattern (code : Byte) : Option Layout :=
  match code.toNat with
  | 0 => some .rggb
  | 1 => some .grbg
  | 2 => some .gbrg
  | 3 => some .bggr
  | _ => none

/-- The 2×2 block of a layout, by `y mod 2` and `x mod 2` (43_demosaic.md R160). -/
def Layout.at (layout : Layout) (py px : Nat) : Channel :=
  match layout, py, px with
  | .rggb, 0, 0 => .r
  | .rggb, 0, _ => .g
  | .rggb, _, 0 => .g
  | .rggb, _, _ => .b
  | .grbg, 0, 0 => .g
  | .grbg, 0, _ => .r
  | .grbg, _, 0 => .b
  | .grbg, _, _ => .g
  | .gbrg, 0, 0 => .g
  | .gbrg, 0, _ => .b
  | .gbrg, _, 0 => .r
  | .gbrg, _, _ => .g
  | .bggr, 0, 0 => .b
  | .bggr, 0, _ => .g
  | .bggr, _, 0 => .g
  | .bggr, _, _ => .r

/-- The channel a site samples (43_demosaic.md R161). -/
def native (layout : Layout) (x y : Nat) : Channel := layout.at (y % 2) (x % 2)

/-- The class of a site for a target channel, its cases in the order of 43_demosaic.md R162. -/
def siteClass (layout : Layout) (x y : Nat) (c : Channel) : SiteClass :=
  if native layout x y = c then .own
  else if c = .g then .cross
  else if native layout x y ≠ .g then .diag
  else if native layout (x + 1) y = c then .lineH
  else .lineV

/-- The channel-offset table (43_demosaic.md R163): `(dx, dy)`, right and down positive. -/
def SiteClass.offsets : SiteClass → List (Int × Int)
  | .own => [(0, 0)]
  | .cross => [(0, -1), (-1, 0), (1, 0), (0, 1)]
  | .diag => [(-1, -1), (1, -1), (-1, 1), (1, 1)]
  | .lineH => [(-1, 0), (1, 0)]
  | .lineV => [(0, -1), (0, 1)]

/-- `mirror(i, n)` (43_demosaic.md R165). -/
def mirrorIdx (i : Int) (n : Nat) : Nat :=
  if n = 1 then 0
  else if i < 0 then (-i).toNat
  else if (n : Int) - 1 < i then (2 * ((n : Int) - 1) - i).toNat
  else i.toNat

/-- `clampidx(i, n)` (43_demosaic.md R166). -/
def clampIdx (i : Int) (n : Nat) : Nat := (min (max i 0) ((n : Int) - 1)).toNat

/-- The border function `CFG_DEMOSAIC.BORDER` selects (43_demosaic.md R165, R166). -/
def Border.index (border : Border) (i : Int) (n : Nat) : Nat :=
  match border with
  | .mirror => mirrorIdx i n
  | .clamp => clampIdx i n

/-- `round(sum, k)` (43_demosaic.md R168). -/
def Rounding.apply (rounding : Rounding) (sum k : Nat) : Nat :=
  match rounding with
  | .halfUp => (2 * sum + k) / (2 * k)
  | .trunc => sum / k

/-- What a demosaic run is given besides the mosaic (43_demosaic.md R172). -/
structure DemosaicArgs where
  layout : Layout
  border : Border
  rounding : Rounding
  width : Nat
  height : Nat
deriving DecidableEq, Repr

/-- Where the neighbour at an offset of site `(x, y)` lies in the mosaic (43_demosaic.md R161, R167). -/
def DemosaicArgs.neighbour (a : DemosaicArgs) (x y : Nat) (offset : Int × Int) : Nat :=
  a.border.index ((y : Int) + offset.2) a.height * a.width + a.border.index ((x : Int) + offset.1) a.width

/-- The samples `S` of a site and a channel (43_demosaic.md R167): repeats count. -/
def DemosaicArgs.samples (a : DemosaicArgs) (mosaic : Nat → Byte) (x y : Nat) (c : Channel) : List Nat :=
  (siteClass a.layout x y c).offsets.map fun offset => (mosaic (a.neighbour x y offset)).toNat

/-- The rounded value of one channel, before the clamp (43_demosaic.md R167, R168). -/
def DemosaicArgs.rounded (a : DemosaicArgs) (mosaic : Nat → Byte) (x y : Nat) (c : Channel) : Nat :=
  a.rounding.apply (a.samples mosaic x y c).sum (a.samples mosaic x y c).length

/-- The 8-bit sample `q(x, y, c)`: rounded, then clamped (43_demosaic.md R168). -/
def DemosaicArgs.q (a : DemosaicArgs) (mosaic : Nat → Byte) (x y : Nat) (c : Channel) : Byte :=
  BitVec.ofNat 8 (min (a.rounded mosaic x y c) 255)

/-- The channel with index `j` (00_scope.md R12). -/
def channelOfIndex (j : Nat) : Channel :=
  match j with
  | 0 => .r
  | 1 => .g
  | _ => .b

/-- The image as `RGB` holds it: byte `n` is channel `n mod 3` of pixel `n / 3`, pixels row-major
(43_demosaic.md R169). -/
def DemosaicArgs.image (a : DemosaicArgs) (mosaic : Nat → Byte) : List Byte :=
  (List.range (3 * (a.width * a.height))).map fun n =>
    a.q mosaic (n / 3 % a.width) (n / 3 / a.width) (channelOfIndex (n % 3))

/-- The demosaic of `MOSAIC` into `RGB`, with `OUT_DIM` (43_demosaic.md R170); `none` for an unsupported pattern
(43_demosaic.md R171). -/
def State.demosaicInto (s : State) (dim : Dim) : Option State :=
  (layoutOfPattern s.cfgDemosaic.pattern).map fun layout =>
    let a : DemosaicArgs :=
      { layout := layout
        border := s.cfgDemosaic.border
        rounding := s.cfgDemosaic.rounding
        width := dim.width.toNat
        height := dim.height.toNat }
    { s.poke .rgb 0 (a.image (s.peek .mosaic)) with outDim := dim }

/-- The engine step of DEMOSAIC, with the dimensions of `CFG_DIM` (43_demosaic.md R170). -/
def State.demosaicStage (s : State) : State :=
  match s.demosaicInto s.cfgDim with
  | none => s.finish .unsupportedPattern (s.cfgDemosaic.pattern.setWidth 32) 0
  | some s1 => s1.finishOk

/-- `DEMOSAIC` (43_demosaic.md R170). -/
def execDemosaic (s : State) : Host.Outcome State Fault Refusal := .next (s.asCommand 0x00000001 State.demosaicStage)

end Sys2Proof.Machine
end

