-- ==== Sys2Proof/Machine/Parse.lean ====
section
/-! DEFINITION. The frame-header parser (42_parse.md). -/

namespace Sys2Proof.Machine

open Sys2Proof

/-- PARSE up to its exit (42_parse.md R140): the state with `HDR` and `MOSAIC` written, and the diagnostic words when
the frame is malformed. -/
def State.parseFrame (s : State) : Option (Word × Word) × State :=
  if s.frameLen.toNat < 3 then
    (some (s.frameLen, 3), { s with hdr := { s.hdr with valid := false } })
  else
    let width := s.peek .frame 1
    let height := s.peek .frame 2
    let n := width.toNat * height.toNat
    let hdr : Hdr := { mode := s.peek .frame 0, width := width, height := height, valid := false }
    if s.frameLen.toNat - 3 = n then
      (none, { s.poke .mosaic 0 (s.peekBlock .frame 3 n) with hdr := { hdr with valid := true } })
    else (some (s.frameLen, BitVec.ofNat 32 (3 + n)), { s with hdr := hdr })

/-- The engine step of PARSE (42_parse.md R140). -/
def State.parseStage (s : State) : State :=
  match s.parseFrame with
  | (some (info0, info1), s1) => s1.finish .malformedFrame info0 info1
  | (none, s1) => s1.finishOk

/-- `PARSE` (42_parse.md R140). -/
def execParse (s : State) : Host.Outcome State Fault Refusal := .next (s.asCommand 0x00000002 State.parseStage)

end Sys2Proof.Machine
end

