-- ==== Sys2Proof/Machine/Capture.lean ====
section
/-! DEFINITION. The capture sequence, one engine step a stage (44_capture_control.md R205-R212). -/

namespace Sys2Proof.Machine

open Sys2Proof

/-- `CAP_PHASE` written. -/
def State.setPhase (s : State) (p : CapPhase) : State := { s with capPhase := p }

/-- A link failure of a CAPTURE: `fail_capture(DEVICE_UNAVAILABLE, linkop, FRAME_LEN)` (40_link_request.md R101). -/
def State.captureUnavailable (s : State) (linkop : Word) : State :=
  s.failCapture .deviceUnavailable linkop s.frameLen

/-- `fail_capture(UNSUPPORTED_PATTERN, PATTERN, 0)` (44_capture_control.md R206). -/
def State.captureUnsupported (s : State) : State :=
  s.failCapture .unsupportedPattern (s.cfgDemosaic.pattern.setWidth 32) 0

/-- Stage `CHECK` (44_capture_control.md R206). Log entry 17. -/
def State.captureCheck (s : State) : State :=
  match layoutOfPattern s.cfgDemosaic.pattern with
  | none => s.captureUnsupported
  | some _ => s.setPhase .openLink

/-- Stage `OPEN` (44_capture_control.md R207). -/
def State.captureOpen (s : State) : State :=
  if s.status.linkOpen then s.setPhase .resetLink
  else match s.linkAck .linkOpen with
    | (false, s1) => s1.captureUnavailable 1
    | (true, s1) =>
      { s1 with status := { s1.status with linkOpen := true }, openedHere := true }.setPhase .resetLink

/-- Stage `RESET`: the device's queue and `FRAME` are emptied (44_capture_control.md R205, R208). -/
def State.captureReset (s : State) : State :=
  match s.resetLink with
  | (false, s1) => s1.captureUnavailable 2
  | (true, s1) => s1.setPhase .sendRequest

/-- Stage `SEND` (44_capture_control.md R208). -/
def State.captureSend (s : State) : State :=
  match s.sendBytes with
  | (false, s1) => s1.captureUnavailable 3
  | (true, s1) => (s1.setSeq .commandSent).setPhase .accInit

/-- The window of the length policy (44_capture_control.md R210). -/
def State.openWindow (s : State) : State :=
  match s.cfgAcc.lengthPolicy with
  | .configured =>
    { s with
      accExpected := BitVec.ofNat 32 (3 + s.cfgDim.width.toNat * s.cfgDim.height.toNat)
      accHdrPending := false }
  | .headerFirst => { s with accExpected := 3, accHdrPending := true }

/-- Stage `ACC_INIT` (44_capture_control.md R210). -/
def State.captureAccInit (s : State) : State :=
  let s1 := (s.setSeq .accumulating).clearCounters.openWindow
  if s1.accMax = 0 then s1.failCapture .acquisitionTimeout 0 s1.accExpected
  else s1.setPhase .accRead

/-- Stage `ACC_READ`: the read step with the header hook, then the completion test of 44_capture_control.md R210. -/
def State.captureRead (s : State) : State :=
  match s.readStep with
  | (false, s1) => s1.captureUnavailable 4
  | (true, s1) =>
    let s2 := s1.headerHook
    if s2.accCount = s2.accExpected then s2.setPhase .parse
    else if s2.budgetSpent then s2.failCapture .acquisitionTimeout s2.accCount s2.accExpected
    else s2

/-- Stage `PARSE` (44_capture_control.md R211). -/
def State.captureParse (s : State) : State :=
  match s.parseFrame with
  | (some (info0, info1), s1) => s1.failCapture .malformedFrame info0 info1
  | (none, s1) => (s1.setSeq .headerParsed).setPhase .demosaic

/-- Stage `DEMOSAIC`, with the dimensions of `HDR` (44_capture_control.md R212). Its pattern check cannot fail in a run
from reset (log entry 23). -/
def State.captureDemosaic (s : State) : State :=
  match s.demosaicInto { width := s.hdr.width, height := s.hdr.height } with
  | none => s.captureUnsupported
  | some s1 => (s1.setSeq .demosaiced).captureCleanUp.finishOk

/-- The engine step of CAPTURE: the stage of `CAP_PHASE` (44_capture_control.md R205). -/
def State.captureStage (s : State) : State :=
  match s.capPhase with
  | .check => s.captureCheck
  | .openLink => s.captureOpen
  | .resetLink => s.captureReset
  | .sendRequest => s.captureSend
  | .accInit => s.captureAccInit
  | .accRead => s.captureRead
  | .parse => s.captureParse
  | .demosaic => s.captureDemosaic

/-- `CAPTURE` (44_capture_control.md R205). -/
def execCapture (s : State) : Host.Outcome State Fault Refusal := .next (s.asCommand 0x00000006 State.captureStage)

end Sys2Proof.Machine
end

