-- ==== Sys2Proof/Machine/HostPort.lean ====
section
/-! DEFINITION. The four host transactions RR, RW, MR and MW (20_memory.md R64-R67, 30_encoding.md R84). -/

namespace Sys2Proof.Machine

open Sys2Proof

/-- `MemRead(space, addr, 1)` (20_memory.md R64): 0x00 out of range, a draw in a space the running command writes,
else the byte. The result is zero-extended (30_encoding.md R84). Log entries 3 and 11. -/
def State.memRead (s : State) (space : Space) (addr : Nat) : State :=
  if spaceSize space ≤ addr then { s with hostReply := 0 }
  else if s.status.busy ∧ writesSpace s.curOp space then
    { s with hostReply := (Config.busyByte s.draws).setWidth 32, draws := s.draws + 1 }
  else { s with hostReply := (s.peek space addr).setWidth 32 }

/-- `MemWrite(space, addr, 1, v)` (20_memory.md R65). -/
def State.memWrite (s : State) (space : Space) (addr : Nat) (v : Byte) : State :=
  if s.status.busy then s.dropWrite
  else if spaceSize space ≤ addr then s
  else s.poke space addr [v]

/-- `RR` (20_memory.md R66). -/
def execRr (index : BitVec 4) (s : State) : Host.Outcome State Fault Refusal :=
  .next { s with hostReply := s.regRead index }

/-- `RW` (20_memory.md R67). -/
def execRw (index : BitVec 4) (data : Word) (s : State) : Host.Outcome State Fault Refusal :=
  .next (s.regWrite index data)

/-- `MR` (20_memory.md R64). -/
def execMr (space : Space) (addr : BitVec 18) (s : State) : Host.Outcome State Fault Refusal :=
  .next (s.memRead space addr.toNat)

/-- `MW` (20_memory.md R65). -/
def execMw (space : Space) (addr : BitVec 18) (data : Byte) (s : State) : Host.Outcome State Fault Refusal :=
  .next (s.memWrite space addr.toNat data)

end Sys2Proof.Machine
end

