-- ==== Sys2Proof/Machine/Dispatch.lean ====
section
/-! DEFINITION. The one dispatch: each instruction to its meaning. -/

namespace Sys2Proof.Machine

open Sys2Proof

def exec (i : Instr) (s : State) : Host.Outcome State Fault Refusal :=
  match i with
  | .nop => Sys2Proof.Machine.execNop s
  | .demosaic => Sys2Proof.Machine.execDemosaic s
  | .parse => Sys2Proof.Machine.execParse s
  | .accumulate => Sys2Proof.Machine.execAccumulate s
  | .sendRequest => Sys2Proof.Machine.execSendRequest s
  | .linkReset => Sys2Proof.Machine.execLinkReset s
  | .capture => Sys2Proof.Machine.execCapture s
  | .linkOpen => Sys2Proof.Machine.execLinkOpen s
  | .linkClose => Sys2Proof.Machine.execLinkClose s
  | .abort => Sys2Proof.Machine.execAbort s
  | .rr index => Sys2Proof.Machine.execRr index s
  | .rw index data => Sys2Proof.Machine.execRw index data s
  | .mr space addr => Sys2Proof.Machine.execMr space addr s
  | .mw space addr data => Sys2Proof.Machine.execMw space addr data s
  | .request opcode param => Sys2Proof.Machine.execRequest opcode param s
  | .response mode width height mosaic => Sys2Proof.Machine.execResponse mode width height mosaic s

end Sys2Proof.Machine
end

