-- ==== Sys2Proof/Machine/Fetch.lean ====
section
/-! DEFINITION. Where a step finds what it runs: the next packet of the schedule, or the command the engine is
executing (44_capture_control.md R216). -/

namespace Sys2Proof.Machine

open Sys2Proof

/-- Whose event a packet is (30_encoding.md R80): the host writes command words and descriptors, the engine computes
requests, the link sends responses. -/
def packetAgent : Packet → Agent
  | .cmd _ => .host
  | .host _ => .host
  | .req16 _ => .engine
  | .resp _ => .link

/-- The command whose next stage the engine's step is: the one `CUR_OP` names, if it is one with engine steps
(44_capture_control.md R216). NOP and ABORT have none. -/
def engineInstr (op : Byte) : Option Instr :=
  match commandOfOp op with
  | some .nop => none
  | some .abort => none
  | other => other

/-- What a packet means that the decoder rejects: an illegal command word is a write to `CMD` like any other and is
reported (30_encoding.md R83, 44_capture_control.md R203); bytes that are no response are line noise, which the link
may send (40_link_request.md R100); a descriptor that is not well formed has no meaning (30_encoding.md R85). -/
def rejected (e : DecodeError) (s : State) : Host.Outcome State Fault Refusal :=
  match e with
  | .illegalCommand v => .next (s.regWrite 0 v)
  | .malformedResponse bytes => .next (s.lineUp bytes)
  | .malformedDescriptor _ => .refused .malformedDescriptor

/-- A packet taken: decoded and run. -/
def runPacket (p : Packet) (s : State) : Host.Outcome State Fault Refusal :=
  match decode p with
  | .ok i => exec i { s with turn := packetAgent p }
  | .error e => rejected e { s with turn := packetAgent p }

/-- The engine's turn: its enabled step, or none while idle (44_capture_control.md R216, 60_exceptions.md R244). -/
def runEngine (s : State) : Host.Outcome State Fault Refusal :=
  if s.status.busy then
    match engineInstr s.curOp with
    | some i => exec i { s with turn := .engine }
    | none => .fault .noStage
  else .next s

/-- The next event of the total order (20_memory.md R72). With none lined up the engine takes its step if it has one:
an enabled step is eventually taken (44_capture_control.md R216). Log entry 6. -/
def runNext (s : State) : Host.Outcome State Fault Refusal :=
  match s.schedule with
  | [] => runEngine s
  | .engine :: rest => runEngine { s with schedule := rest }
  | .reset :: rest => .next (State.platformReset { s with schedule := rest })
  | .packet p :: rest => runPacket p { s with schedule := rest }

/-- A packet put before everything still to come. -/
def State.placeFirst (s : State) (p : Packet) : State := { s with schedule := .packet p :: s.schedule }

end Sys2Proof.Machine
end

