-- ==== Sys2Proof/Machine/Step.lean ====
section
/-! DEFINITION. One step of the machine: one event of the total order of 20_memory.md R72. -/

namespace Sys2Proof.Machine

open Sys2Proof

/-- One step: a host transaction, an engine step, a wire event, or a platform reset; each is atomic
(20_memory.md R69). -/
def step (s : State) : Host.Outcome State Fault Refusal := runNext s

/-- The state with the instruction of these bits as the next event. Log entries 19 and 22. -/
def State.withFetchWord (s : State) (nbits w : Nat) : State := s.placeFirst (packetOfTable nbits w)

end Sys2Proof.Machine
end

