-- ==== Sys2Proof/Safety.lean ====
section
/-! DEFINITION. What holds of every state a run from reset reaches, in the terms the statements use: the legal
combinations of the registers, the hidden state and the memories that the rules promise. -/

namespace Sys2Proof.Safety

open Sys2Proof Sys2Proof.Machine

/-- The three memories keep their canonical form inside their spaces (10_state.md R40). -/
def MemoriesWf (s : State) : Prop :=
  (s.mosaic.wf ∧ s.rgb.wf ∧ s.frame.wf) ∧
    s.mosaic.within Config.mosaicCap ∧ s.rgb.within Config.rgbCap ∧ s.frame.within Config.frameCap

/-- The `SEQ_STATE` a running CAPTURE shows before the stage of a phase (44_capture_control.md R205). -/
def seqBefore : CapPhase → SeqState
  | .check => .idle
  | .openLink => .idle
  | .resetLink => .idle
  | .sendRequest => .idle
  | .accInit => .commandSent
  | .accRead => .accumulating
  | .parse => .accumulating
  | .demosaic => .headerParsed

/-- The window a frame header in `FRAME` declares: `3 + width * height` (41_accumulate.md R132). -/
def declaredWindow (s : State) : Nat := 3 + (s.peek .frame 1).toNat * (s.peek .frame 2).toNat

/-- The engine's next step is a link read: a standalone ACCUMULATE after its start step, or CAPTURE in `ACC_READ`. -/
def Reading (s : State) : Prop :=
  s.status.busy = true ∧
    ((s.curOp = 0x03 ∧ s.accStarted = true) ∨ (s.curOp = 0x06 ∧ s.capPhase = .accRead))

/-- The accumulation window while a read is to come: bytes are missing, attempts are left, and what is missing fits in
`FRAME` (41_accumulate.md R121, R122, R129). -/
structure Window (s : State) : Prop where
  linkOpen : s.status.linkOpen = true
  missing : s.accCount.toNat < s.accExpected.toNat
  budget : s.accAttempts.toNat < s.accMax.toNat
  room : s.frameLen.toNat + (s.accExpected.toNat - s.accCount.toNat) ≤ Config.frameCap

/-- The header part of a window under each length policy (44_capture_control.md R210, 41_accumulate.md R132). -/
structure HeaderPart (s : State) : Prop where
  configured : s.cfgAcc.lengthPolicy = .configured → s.accHdrPending = false
  pending : s.accHdrPending = true → s.accExpected = 3
  extended :
    s.cfgAcc.lengthPolicy = .headerFirst → s.accHdrPending = false →
      3 ≤ s.accCount.toNat ∧ s.accExpected.toNat = declaredWindow s

/-- What holds before the stage of each phase of a running CAPTURE (44_capture_control.md R206-R212). -/
def CaptureReady (s : State) : Prop :=
  match s.capPhase with
  | .check => s.openedHere = false
  | .openLink => s.openedHere = false ∧ s.cfgDemosaic.pattern.toNat ≤ 3
  | .resetLink => s.status.linkOpen = true ∧ s.cfgDemosaic.pattern.toNat ≤ 3
  | .sendRequest => s.status.linkOpen = true ∧ s.cfgDemosaic.pattern.toNat ≤ 3 ∧ s.frameLen = 0
  | .accInit => s.status.linkOpen = true ∧ s.cfgDemosaic.pattern.toNat ≤ 3 ∧ s.frameLen = 0
  | .accRead =>
    s.status.linkOpen = true ∧ s.cfgDemosaic.pattern.toNat ≤ 3 ∧ s.frameLen = s.accCount ∧ HeaderPart s
  | .parse =>
    s.status.linkOpen = true ∧ s.cfgDemosaic.pattern.toNat ≤ 3 ∧ s.frameLen = s.accCount ∧
      s.accCount = s.accExpected ∧
      (s.cfgAcc.lengthPolicy = .headerFirst → s.accExpected.toNat = declaredWindow s)
  | .demosaic => s.status.linkOpen = true ∧ s.cfgDemosaic.pattern.toNat ≤ 3 ∧ s.hdr.valid = true

/-- While a command runs: `CUR_OP` names a command with engine steps, the error record is clear, `DONE` is 0 and
`LAST_OP` is the running command's (44_capture_control.md R200, R201). -/
structure Running (s : State) : Prop where
  command : 1 ≤ s.curOp.toNat ∧ s.curOp.toNat ≤ 8
  record : s.status.done = false ∧ s.status.err = .none ∧ s.errInfo0 = 0 ∧ s.errInfo1 = 0
  lastOp : s.status.lastOp = s.curOp

/-- The invariant of the machine. -/
structure Inv (s : State) : Prop where
  /-- 44_capture_control.md R213. -/
  neverPersisted : s.status.seqState ≠ .persisted
  memories : MemoriesWf s
  /-- 10_state.md R38. -/
  frameLen : s.frameLen.toNat ≤ Config.frameCap
  /-- 10_state.md R37, 41_accumulate.md R129. -/
  attempts : s.accAttempts.toNat ≤ s.accMax.toNat
  /-- A link that a CAPTURE opened is open only while that CAPTURE runs (44_capture_control.md R209). -/
  openedHere : s.openedHere = true → s.status.busy = true ∧ s.curOp = 0x06 ∧ s.status.linkOpen = true
  running : s.status.busy = true → Running s
  /-- Commands other than CAPTURE never write a non-zero `SEQ_STATE` (44_capture_control.md R214). -/
  otherSeq : s.status.busy = true → s.curOp ≠ 0x06 → s.status.seqState = .idle
  captureSeq : s.status.busy = true → s.curOp = 0x06 → s.status.seqState = seqBefore s.capPhase
  capture : s.status.busy = true → s.curOp = 0x06 → CaptureReady s
  window : Reading s → Window s

/-- How the link answers the next open, reset, write or flush, and what is then still lined up: the next answer of the
state, else the free value (40_link_request.md R100). -/
def Acked (s : State) (answer : Bool) (acks : List Bool) (k : Nat) : Prop :=
  (s.linkAcks = answer :: acks ∧ k = s.draws) ∨
    (s.linkAcks = [] ∧ acks = [] ∧ answer = Config.linkOk s.draws ∧ k = s.draws + 1)

/-- What the link port's read of the missing bytes answers in a state, what is then still to come from the link, and
the bytes then left queued in the device. -/
def ReadAnswered (s : State) (answer : Option (List Byte)) (rx : List RxItem) (queue : List Byte) (k : Nat) : Prop :=
  s.linkRead s.missing =
    (answer, { s.issueLink (.linkRead s.missing) with linkRx := rx, linkQueue := queue, draws := k })

/-- A link operation that needs an open link (40_link_request.md R101). -/
def needsOpenLink : LinkOp → Bool
  | .linkOpen => false
  | .linkClose => true
  | .linkReset => true
  | .linkWrite _ => true
  | .linkFlush => true
  | .linkRead _ => true

/-- The demosaic operands of a state, for a layout and the dimensions of an image (43_demosaic.md R170). -/
def demosaicArgs (s : State) (layout : Layout) (dim : Dim) : DemosaicArgs :=
  { layout := layout
    border := s.cfgDemosaic.border
    rounding := s.cfgDemosaic.rounding
    width := dim.width.toNat
    height := dim.height.toNat }

end Sys2Proof.Safety
end

