-- ==== Sys2Proof/Certificates/Slice0/Obligations.lean ====
section
/-! DEFINITION. The statements for the provers, from the numbered rules of spec/. -/

open Sys2Proof Sys2Proof.Machine Sys2Proof.Safety

/-! ### Encodings -/

/-- R82, R84, R86, R87: decoding the encoding of a well-formed instruction gives it back, every operand at every
value. -/
def Obligations.DecodeOfEncodeIsTheInstruction : Prop :=
  ∀ i : Instr, i.wellFormed = true → decode (encode i) = .ok i

/-- R82, R84, R85, R86, R87: a packet that decodes is the encoding of what it decodes to, so no bit of it is ignored;
and response bytes decode exactly when they are mode, width, height and `width * height` samples. -/
def Obligations.EncodeOfDecodeIsThePacket : Prop :=
  (∀ (p : Packet) (i : Instr), decode p = .ok i → i.wellFormed = true ∧ encode i = p) ∧
  ∀ (bytes : List Byte) (i : Instr),
    decode (.resp bytes) = .ok i ↔
      ∃ (mode width height : Byte) (mosaic : List Byte),
        bytes = mode :: width :: height :: mosaic ∧ mosaic.length = width.toNat * height.toNat ∧
          i = .response mode width height mosaic

/-- R83: the illegal command words are those with `v[31:8] != 0` or `v[7:0]` in 0x0A..0xFF; issued while idle such a
word is rejected with ILLEGAL_COMMAND, issued while busy it is dropped. -/
def Obligations.IllegalCommandWordsAreRejected : Prop :=
  ∀ v : Word,
    (decode (.cmd v) = .error (.illegalCommand v) ↔
      v.extractLsb' 8 24 ≠ 0 ∨ 0x0A ≤ (v.extractLsb' 0 8).toNat) ∧
    ((v.extractLsb' 8 24 ≠ 0 ∨ 0x0A ≤ (v.extractLsb' 0 8).toNat) → ∀ s : State,
      (s.status.busy = false →
        exec (.rw 0 v) s = .next
          { s with
            status :=
              { s.status with
                err := .illegalCommand, lastOp := v.extractLsb' 0 8, ignored := false, seqState := .idle
                busy := false, done := true }
            errInfo0 := v
            errInfo1 := 0 }) ∧
      (s.status.busy = true →
        exec (.rw 0 v) s = .next { s with status := { s.status with ignored := true } }))

/-- R92 and R82: words written out from the spec's encodings decode to the instructions they stand for. -/
def Obligations.WrittenOutWordsDecode : Prop :=
  decode (.cmd 0x00000006) = .ok .capture ∧
  decode (.host 0x4000000000000001) = .ok (.rw 0 0x00000001) ∧
  decode (.host 0x0000000100000000) = .ok (.rr 1) ∧
  decode (.host 0x4000000200000204) = .ok (.rw 2 0x00000204) ∧
  decode (.host 0xC00000050000003C) = .ok (.mw .mosaic 5 0x3C) ∧
  decode (.host 0x9000000300000000) = .ok (.mr .rgb 3) ∧
  decode (.host 0xA000000000000000) = .ok (.mr .frame 0) ∧
  decode (.req16 0xB700) = .ok (.request 0xB7 0x00) ∧
  decode (.resp [1, 2, 1, 7, 9]) = .ok (.response 1 2 1 [7, 9])

/-! ### Steps -/

/-- A step takes the packet at the head of the schedule, on the state without it, as an event of the packet's agent
(R72, R80): it runs the instruction the packet decodes to; a command word that decodes to none is written to `CMD` like
any other (R83, R203); bytes that are no response are queued in the device, as line noise is (R100). A descriptor that
decodes to none is `OnlyMalformedDescriptorsAreRefused`. The schedule, `turn` and the queued noise are the model's
choices (log entries 6, 7 and 14). -/
def Obligations.StepRunsTheScheduledPacket : Prop :=
  ∀ (s : State) (rest : List Event),
    (∀ (p : Packet) (i : Instr), s.schedule = .packet p :: rest → decode p = .ok i →
      step s = exec i { s with schedule := rest, turn := packetAgent p }) ∧
    (∀ v : Word, s.schedule = .packet (.cmd v) :: rest →
      v.extractLsb' 8 24 ≠ 0 ∨ 0x0A ≤ (v.extractLsb' 0 8).toNat →
        step s = exec (.rw 0 v) { s with schedule := rest, turn := .host }) ∧
    (∀ bytes : List Byte, s.schedule = .packet (.resp bytes) :: rest → (∀ i, decode (.resp bytes) ≠ .ok i) →
      step s = .next { s with schedule := rest, turn := .link, linkQueue := s.linkQueue ++ bytes })

/-- While `BUSY = 1` the engine's event, and a step with nothing scheduled, runs the command `CUR_OP` names as an event
of the engine; while idle the engine has no step and nothing changes (R216, R244). The commands with engine steps are
0x01..0x08. -/
def Obligations.StepRunsTheEngineStage : Prop :=
  ∀ s : State,
    (s.status.busy = true → ∀ i : Instr, engineInstr s.curOp = some i →
      (s.schedule = [] → step s = exec i { s with turn := .engine }) ∧
      (∀ rest, s.schedule = .engine :: rest → step s = exec i { s with schedule := rest, turn := .engine })) ∧
    (s.status.busy = false →
      (s.schedule = [] → step s = .next s) ∧
      (∀ rest, s.schedule = .engine :: rest → step s = .next { s with schedule := rest })) ∧
    engineInstr 0x01 = some .demosaic ∧ engineInstr 0x02 = some .parse ∧ engineInstr 0x03 = some .accumulate ∧
    engineInstr 0x04 = some .sendRequest ∧ engineInstr 0x05 = some .linkReset ∧ engineInstr 0x06 = some .capture ∧
    engineInstr 0x07 = some .linkOpen ∧ engineInstr 0x08 = some .linkClose ∧
    ∀ op : Byte, engineInstr op = none ↔ op = 0x00 ∨ 0x09 ≤ op.toNat

/-- R80, R81: a command instruction at the host's event is the write of its word to `CMD`. NOP and ABORT have no other
event. -/
def Obligations.CommandIsTheWriteOfItsWord : Prop :=
  ∀ s : State,
    exec .nop s = exec (.rw 0 0x00000000) s ∧ exec .abort s = exec (.rw 0 0x00000009) s ∧
    (s.turn ≠ .engine →
      exec .demosaic s = exec (.rw 0 0x00000001) s ∧ exec .parse s = exec (.rw 0 0x00000002) s ∧
      exec .accumulate s = exec (.rw 0 0x00000003) s ∧ exec .sendRequest s = exec (.rw 0 0x00000004) s ∧
      exec .linkReset s = exec (.rw 0 0x00000005) s ∧ exec .capture s = exec (.rw 0 0x00000006) s ∧
      exec .linkOpen s = exec (.rw 0 0x00000007) s ∧ exec .linkClose s = exec (.rw 0 0x00000008) s)

/-! ### Reset -/

/-- R260: the state at power-on has every register and all hidden state at the value of the table, and a reset sets
them to it, whatever they held before. -/
def Obligations.ResetSetsEveryRegister : Prop :=
  let asInTheTable (t : State) : Prop :=
    t.regRead 0 = 0 ∧ t.regRead 1 = 0x00000000 ∧ t.regRead 2 = 0x000078A0 ∧
    t.regRead 3 = BitVec.ofNat 32 Config.targetPattern.val ∧ t.regRead 4 = 0x00000064 ∧ t.regRead 5 = 0 ∧
    t.regRead 6 = 0 ∧ t.regRead 7 = 0 ∧ t.regRead 8 = 0 ∧ t.regRead 9 = 0 ∧ t.regRead 10 = 0x000000B7 ∧
    t.regRead 11 = 0 ∧ t.regRead 12 = 0 ∧ t.regRead 13 = 0 ∧ t.regRead 14 = 0 ∧ t.regRead 15 = 0 ∧
    t.curOp = 0 ∧ t.capPhase = .check ∧ t.openedHere = false ∧ t.accMax = 0 ∧ t.accHdrPending = false
  asInTheTable State.reset ∧
  ∀ (s : State) (rest : List Event), s.schedule = .reset :: rest → ∃ t : State, step s = .next t ∧ asInTheTable t

/-- R261, R262: a reset leaves every byte of the three memories and what the device has queued, ends a running command
and closes an open link, with `LinkClose` issued exactly when the link was open. -/
def Obligations.ResetKeepsMemoriesAndClosesTheLink : Prop :=
  ∀ (s : State) (rest : List Event), s.schedule = .reset :: rest → ∃ t : State, step s = .next t ∧
    (∀ space addr, t.peek space addr = s.peek space addr) ∧
    t.status.linkOpen = false ∧ t.status.busy = false ∧ t.linkQueue = s.linkQueue ∧
    t.linkLog = (if s.status.linkOpen then s.linkLog ++ [.linkClose] else s.linkLog)

/-! ### The invariant and what follows for whole runs -/

/-- The state at power-on reset meets the invariant. -/
def Obligations.ResetMeetsTheInvariant : Prop := Inv State.reset

/-- Every step from a state that meets the invariant gives a state that meets it: the memories keep their form, the
window of an accumulation its bounds (R129), a CAPTURE its stage conditions (R205-R212), `SEQ_STATE` its meaning. -/
def Obligations.EveryStepKeepsTheInvariant : Prop :=
  ∀ s t : State, Inv s → step s = .next t → Inv t

/-- R216, R245: from a state that meets the invariant no step faults. -/
def Obligations.NoStepFaults : Prop :=
  ∀ (s : State) (f : Fault), Inv s → step s ≠ .fault f

/-- R85, R245: a step is refused exactly when the next event is a host descriptor that is not well formed. -/
def Obligations.OnlyMalformedDescriptorsAreRefused : Prop :=
  ∀ (s : State) (r : Refusal),
    step s = .refused r ↔
      r = .malformedDescriptor ∧ ∃ t rest, s.schedule = .packet (.host t) :: rest ∧ decodeHost t = none

/-- R213: the block never writes `SEQ_STATE = 5`. -/
def Obligations.PersistedIsNeverWritten : Prop :=
  ∀ s t : State, s.status.seqState ≠ .persisted → step s = .next t → t.status.seqState ≠ .persisted

/-- R101: from a state that meets the invariant, a step issues `LinkReset`, `LinkWrite`, `LinkFlush`, `LinkRead` and
`LinkClose` only while `STATUS.LINK_OPEN = 1`, and `LinkOpen` only while it is 0. -/
def Obligations.LinkOperationsNeedAnOpenLink : Prop :=
  ∀ s t : State, Inv s → step s = .next t →
    ∃ ops, t.linkLog = s.linkLog ++ ops ∧ ∀ op ∈ ops, s.status.linkOpen = needsOpenLink op

/-- R71: an engine step changes no byte of a space that the running command does not write. -/
def Obligations.EngineWritesOnlyItsSpaces : Prop :=
  ∀ s t : State, s.status.busy = true → (s.schedule = [] ∨ ∃ rest, s.schedule = .engine :: rest) → step s = .next t →
    ∀ space, writesSpace s.curOp space = false → ∀ addr, t.peek space addr = s.peek space addr

/-- R71, R212: while a command runs, no step but a reset changes `CFG_DIM`, `CFG_DEMOSAIC`, `CFG_ACC` or `REQ`. -/
def Obligations.ConfigurationIsStableWhileBusy : Prop :=
  ∀ s t : State, s.status.busy = true → (∀ rest, s.schedule ≠ .reset :: rest) → step s = .next t →
    t.cfgDim = s.cfgDim ∧ t.cfgDemosaic = s.cfgDemosaic ∧ t.cfgAcc = s.cfgAcc ∧ t.req = s.req

/-- R271: with no further event scheduled, a command that meets the invariant ends: a standalone ACCUMULATE within
`1 + ACC_MAX` engine steps of its issue, a CAPTURE within `7 + ACC_MAX`, any other command in one. It rests on an engine
whose enabled step is always taken (log entry 6) and a link that always answers (log entry 26). -/
def Obligations.EveryCommandEnds : Prop :=
  ∀ s : State, Inv s → s.schedule = [] → s.status.busy = true →
    ∃ (k : Nat) (t : State), core.run k s = .next t ∧ t.status.busy = false ∧
      (s.curOp ≠ 0x03 → s.curOp ≠ 0x06 → k = 1) ∧
      (s.curOp = 0x03 → s.accStarted = false → k ≤ 1 + s.cfgAcc.maxAttempts.toNat) ∧
      (s.curOp = 0x06 → s.capPhase = .check → k ≤ 7 + s.cfgAcc.maxAttempts.toNat)

/-! ### The host port -/

/-- R66: a register read returns the register, changes nothing, and is allowed while busy; `CMD` and the reserved
indices read 0, and the six registers without fields read their 32 bits. `hostReply`, which holds the word returned, is
the model's own (log entry 11). -/
def Obligations.RegisterReadReturnsTheRegister : Prop :=
  ∀ s : State,
    (∀ index, exec (.rr index) s = .next { s with hostReply := s.regRead index }) ∧
    s.regRead 0 = 0 ∧ s.regRead 5 = s.accExpected ∧ s.regRead 6 = s.accCount ∧ s.regRead 7 = s.accAttempts ∧
    s.regRead 8 = s.frameLen ∧ s.regRead 11 = s.errInfo0 ∧ s.regRead 12 = s.errInfo1 ∧
    s.regRead 14 = 0 ∧ s.regRead 15 = 0

/-- R25, R30, R31, R230: the fields of `STATUS` and their codes stand in the bits the tables give, the reserved bits
read 0, and every field is 0 after reset. -/
def Obligations.StatusFieldsStandInTheirBits : Prop :=
  (∀ s : State,
    (s.regRead 1).getLsbD 0 = s.status.busy ∧ (s.regRead 1).getLsbD 1 = s.status.done ∧
    (s.regRead 1).getLsbD 2 = s.status.ignored ∧ (s.regRead 1).getLsbD 3 = s.status.linkOpen ∧
    (s.regRead 1).extractLsb' 4 4 = ErrCode.code s.status.err ∧ (s.regRead 1).extractLsb' 8 8 = s.status.lastOp ∧
    (s.regRead 1).extractLsb' 16 4 = SeqState.code s.status.seqState ∧ (s.regRead 1).extractLsb' 20 12 = 0) ∧
  [ErrCode.none, .deviceUnavailable, .acquisitionTimeout, .malformedFrame, .unsupportedPattern, .illegalCommand,
    .bufferOverflow, .aborted].map ErrCode.code = [0, 1, 2, 3, 4, 5, 6, 7] ∧
  [SeqState.idle, .commandSent, .accumulating, .headerParsed, .demosaiced, .persisted, .timeout, .malformedFrame,
    .deviceUnavailable, .unsupportedPattern, .aborted].map SeqState.code = [0, 1, 2, 3, 4, 5, 6, 7, 8, 9, 10] ∧
  State.reset.regRead 1 = 0

/-- R39, R43: the fields of `HDR` and `OUT_DIM` stand in the bits the tables give. -/
def Obligations.HeaderFieldsStandInTheirBits : Prop :=
  ∀ s : State,
    (s.regRead 9).extractLsb' 0 8 = s.hdr.mode ∧ (s.regRead 9).extractLsb' 8 8 = s.hdr.width ∧
    (s.regRead 9).extractLsb' 16 8 = s.hdr.height ∧ (s.regRead 9).getLsbD 24 = s.hdr.valid ∧
    (s.regRead 9).extractLsb' 25 7 = 0 ∧
    (s.regRead 13).extractLsb' 0 8 = s.outDim.width ∧ (s.regRead 13).extractLsb' 8 8 = s.outDim.height ∧
    (s.regRead 13).extractLsb' 16 16 = 0

/-- R67, R32-R35, R41: while idle a write to an RW register sets each defined field to its bits of the value, as the
tables place and name them, changes nothing else, and reads back with the reserved bits 0. -/
def Obligations.ConfigurationWritesReadBack : Prop :=
  ∀ (s : State) (v : Word), s.status.busy = false →
    (∃ t, exec (.rw 2 v) s = .next t ∧
      t = { s with cfgDim := { width := v.extractLsb' 0 8, height := v.extractLsb' 8 8 } } ∧
      t.regRead 2 = v &&& 0x0000FFFF) ∧
    (∃ t, exec (.rw 3 v) s = .next t ∧
      t =
        { s with
          cfgDemosaic :=
            { pattern := v.extractLsb' 0 8
              border := if v.getLsbD 8 then .clamp else .mirror
              rounding := if v.getLsbD 9 then .trunc else .halfUp } } ∧
      t.regRead 3 = v &&& 0x000003FF) ∧
    (∃ t, exec (.rw 4 v) s = .next t ∧
      t =
        { s with
          cfgAcc :=
            { maxAttempts := v.extractLsb' 0 16
              lengthPolicy := if v.getLsbD 16 then .headerFirst else .configured } } ∧
      t.regRead 4 = v &&& 0x0001FFFF) ∧
    (∃ t, exec (.rw 5 v) s = .next t ∧ t = { s with accExpected := v } ∧ t.regRead 5 = v) ∧
    (∃ t, exec (.rw 10 v) s = .next t ∧
      t = { s with req := { opcode := v.extractLsb' 0 8, param := v.extractLsb' 8 8 } } ∧
      t.regRead 10 = v &&& 0x0000FFFF)

/-- R23, R44: while idle a write to an RO register or to a reserved index has no effect. -/
def Obligations.ReadOnlyWritesHaveNoEffect : Prop :=
  ∀ (s : State) (index : BitVec 4) (v : Word), s.status.busy = false →
    index ∈ [1, 6, 7, 8, 9, 11, 12, 13, 14, 15] → exec (.rw index v) s = .next s

/-- R71: while busy every register write but ABORT and every byte write only sets `IGNORED`; registers read their
current values; and a byte read of a space the running command writes returns a draw. The spaces a command writes are
those of the table of R71, and all other commands write none. -/
def Obligations.HostAccessWhileBusy : Prop :=
  (∀ (op : Byte) (space : Space),
    writesSpace op space = true ↔
      (op = 0x01 ∧ space = .rgb) ∨ (op = 0x02 ∧ space = .mosaic) ∨ (op = 0x03 ∧ space = .frame) ∨ op = 0x06) ∧
  ∀ s : State, s.status.busy = true →
    (∀ (index : BitVec 4) (v : Word), ¬(index = 0 ∧ v = 0x00000009) →
      exec (.rw index v) s = .next { s with status := { s.status with ignored := true } }) ∧
    (∀ (space : Space) (addr : BitVec 18) (v : Byte),
      exec (.mw space addr v) s = .next { s with status := { s.status with ignored := true } }) ∧
    (∀ index, exec (.rr index) s = .next { s with hostReply := s.regRead index }) ∧
    (∀ (space : Space) (addr : BitVec 18), addr.toNat < spaceSize space →
      (s.curOp = 0x01 ∧ space = .rgb) ∨ (s.curOp = 0x02 ∧ space = .mosaic) ∨ (s.curOp = 0x03 ∧ space = .frame) ∨
          s.curOp = 0x06 →
      exec (.mr space addr) s =
        .next { s with hostReply := (Config.busyByte s.draws).setWidth 32, draws := s.draws + 1 })

/-- R64: a byte read returns 0x00 out of range, a draw of a space the running command writes, else the byte of the
space; no register, memory byte or hidden state changes. The sizes of the spaces are those of the table of R40; that
MOSAIC keeps its whole size against the range that R61 writes out is the model's choice (log entry 27). `hostReply` and
`draws` are the model's own (log entries 3 and 11). -/
def Obligations.ByteReadReturnsTheByte : Prop :=
  (spaceSize .mosaic = 65025 ∧ spaceSize .rgb = 195075 ∧ spaceSize .frame = 65028 ∧
    spaceSize .frame = Config.frameCap) ∧
  ∀ (s : State) (space : Space) (addr : BitVec 18),
    (spaceSize space ≤ addr.toNat → exec (.mr space addr) s = .next { s with hostReply := 0 }) ∧
    (addr.toNat < spaceSize space → s.status.busy = true → writesSpace s.curOp space = true →
      exec (.mr space addr) s =
        .next { s with hostReply := (Config.busyByte s.draws).setWidth 32, draws := s.draws + 1 }) ∧
    (addr.toNat < spaceSize space → s.status.busy = false ∨ writesSpace s.curOp space = false →
      exec (.mr space addr) s = .next { s with hostReply := (s.peek space addr.toNat).setWidth 32 })

/-- R65: while idle a byte write in range stores the byte and leaves every other byte of every space and all other
state; out of range it has no effect; while busy it only sets `IGNORED`. -/
def Obligations.ByteWriteStoresTheByte : Prop :=
  ∀ (s : State) (space : Space) (addr : BitVec 18) (v : Byte),
    (s.status.busy = true → exec (.mw space addr v) s = .next { s with status := { s.status with ignored := true } }) ∧
    (s.status.busy = false → spaceSize space ≤ addr.toNat → exec (.mw space addr v) s = .next s) ∧
    (s.status.busy = false → addr.toNat < spaceSize space →
      ∃ t, exec (.mw space addr v) s = .next t ∧ t.peek space addr.toNat = v ∧
        (∀ other a, ¬(other = space ∧ a = addr.toNat) → t.peek other a = s.peek other a) ∧
        t = { s with mosaic := t.mosaic, rgb := t.rgb, frame := t.frame })

/-! ### Issue, NOP, ABORT and the end of a command -/

/-- R10: what `finish` writes, and that it writes nothing else. -/
def Obligations.FinishWritesTheRecord : Prop :=
  ∀ (s : State) (code : ErrCode) (info0 info1 : Word),
    s.finish code info0 info1 =
      { s with
        status := { s.status with err := code, busy := false, done := true }
        errInfo0 := info0
        errInfo1 := info1 }

/-- R202: NOP while idle runs the issue bookkeeping and completes at once. -/
def Obligations.NopCompletesAtOnce : Prop :=
  encode .nop = .cmd 0x00000000 ∧
  ∀ s : State, s.status.busy = false →
    exec .nop s = .next
      { s with
        status :=
          { s.status with
            err := .none, lastOp := 0, ignored := false, seqState := .idle, busy := false, done := true }
        errInfo0 := 0
        errInfo1 := 0 }

/-- R200, R201: a command of 0x01..0x08 issued while idle is accepted: the bookkeeping runs, `CUR_OP` is its opcode,
`BUSY` is set and `DONE` cleared; CAPTURE also starts at `CHECK`. `accStarted` is the model's own (log entry 8). -/
def Obligations.CommandsAreAcceptedWhileIdle : Prop :=
  ∀ (s : State) (op : Byte), s.status.busy = false → 1 ≤ op.toNat → op.toNat ≤ 8 →
    exec (.rw 0 (op.setWidth 32)) s = .next
      { s with
        status :=
          { s.status with
            lastOp := op, err := .none, ignored := false, seqState := .idle, busy := true, done := false }
        errInfo0 := 0
        errInfo1 := 0
        curOp := op
        accStarted := false
        capPhase := if op = 0x06 then .check else s.capPhase
        openedHere := if op = 0x06 then false else s.openedHere
        accHdrPending := if op = 0x06 then false else s.accHdrPending }

/-- R204: ABORT while idle has no effect; while busy it ends the running command with ABORTED, `LAST_OP` and `IGNORED`
kept, nothing undone; a running CAPTURE is cleaned up and left at `SEQ_STATE` ABORTED. -/
def Obligations.AbortStopsTheRunningCommand : Prop :=
  encode .abort = .cmd 0x00000009 ∧
  ∀ s : State,
    (s.status.busy = false → exec .abort s = .next s) ∧
    (s.status.busy = true → s.curOp ≠ 0x03 → s.curOp ≠ 0x06 → exec .abort s = .next (s.finish .aborted 0 0)) ∧
    (s.status.busy = true → s.curOp = 0x03 →
      exec .abort s = .next (s.finish .aborted s.accCount s.accExpected)) ∧
    (s.status.busy = true → s.curOp = 0x06 →
      exec .abort s = .next
        (State.finish
          { s with
            status :=
              { s.status with
                linkOpen := if s.openedHere then false else s.status.linkOpen
                seqState := .aborted }
            linkLog := if s.openedHere then s.linkLog ++ [.linkClose] else s.linkLog
            openedHere := false }
          .aborted s.accCount s.accExpected))

/-- R209: the failure of a CAPTURE closes a link that this CAPTURE opened, sets the `SEQ_STATE` of its error and ends
the command, in one step. -/
def Obligations.CaptureFailureCleansUp : Prop :=
  ∀ (s : State) (code : ErrCode) (seq : SeqState) (info0 info1 : Word),
    (code, seq) ∈
        [(ErrCode.acquisitionTimeout, SeqState.timeout), (.malformedFrame, .malformedFrame),
          (.deviceUnavailable, .deviceUnavailable), (.unsupportedPattern, .unsupportedPattern), (.aborted, .aborted)] →
      s.failCapture code info0 info1 =
        State.finish
          { s with
            status :=
              { s.status with
                linkOpen := if s.openedHere then false else s.status.linkOpen
                seqState := seq }
            linkLog := if s.openedHere then s.linkLog ++ [.linkClose] else s.linkLog
            openedHere := false }
          code info0 info1

/-- R209: when a step ends a CAPTURE that opened the link itself, the link is closed and `LinkClose` is the last
operation issued. -/
def Obligations.CaptureClosesTheLinkItOpened : Prop :=
  ∀ s t : State, Inv s → s.openedHere = true → step s = .next t → t.status.busy = false →
    t.status.linkOpen = false ∧ t.linkLog.getLast? = some .linkClose

/-! ### Link commands and wire formats -/

/-- R102: the engine step of LINK_OPEN. -/
def Obligations.LinkOpenOpensTheDevice : Prop :=
  encode .linkOpen = .cmd 0x00000007 ∧
  ∀ s : State, s.turn = .engine →
    (s.status.linkOpen = true → exec .linkOpen s = .next (s.finish .none 0 0)) ∧
    (s.status.linkOpen = false → ∀ ok acks k, Acked s ok acks k →
      exec .linkOpen s = .next
        (if ok then
          State.finish
            { s with
              status := { s.status with linkOpen := true }
              linkLog := s.linkLog ++ [.linkOpen], linkAcks := acks, draws := k }
            .none 0 0
        else
          State.finish { s with linkLog := s.linkLog ++ [.linkOpen], linkAcks := acks, draws := k }
            .deviceUnavailable 1 s.frameLen))

/-- R103: the engine step of LINK_CLOSE. -/
def Obligations.LinkCloseClosesTheDevice : Prop :=
  encode .linkClose = .cmd 0x00000008 ∧
  ∀ s : State, s.turn = .engine →
    (s.status.linkOpen = true →
      exec .linkClose s = .next
        (State.finish
          { s with status := { s.status with linkOpen := false }, linkLog := s.linkLog ++ [.linkClose] } .none 0 0)) ∧
    (s.status.linkOpen = false → exec .linkClose s = .next (s.finish .none 0 0))

/-- R104: the engine step of LINK_RESET: on `ok` the bytes queued in the device are discarded and `FRAME_LEN` is 0; the
bytes of `FRAME` are not cleared. R104 does not say what a device that answers `fail` then holds: it is free, the model's
choice (log entry 28). -/
def Obligations.LinkResetEmptiesTheFrame : Prop :=
  encode .linkReset = .cmd 0x00000005 ∧
  ∀ s : State, s.turn = .engine →
    (s.status.linkOpen = false → exec .linkReset s = .next (s.finish .deviceUnavailable 2 s.frameLen)) ∧
    (s.status.linkOpen = true → ∀ ok acks k, Acked s ok acks k →
      exec .linkReset s = .next
        (if ok then
          State.finish
            { s with
              frameLen := 0, linkQueue := []
              linkLog := s.linkLog ++ [.linkReset], linkAcks := acks, draws := k }
            .none 0 0
        else
          State.finish
            { s with
              linkQueue := Config.linkLeft k
              linkLog := s.linkLog ++ [.linkReset], linkAcks := acks, draws := k + 1 }
            .deviceUnavailable 2 s.frameLen))

/-- R106: the engine step of SEND_REQUEST: the two bytes of `REQ`, opcode first, are written and then flushed; the flush
is not issued when the write fails. `encoded` is the model's own (log entry 13). -/
def Obligations.SendRequestWritesTheTwoBytes : Prop :=
  encode .sendRequest = .cmd 0x00000004 ∧
  ∀ s : State, s.turn = .engine →
    (s.status.linkOpen = false → exec .sendRequest s = .next (s.finish .deviceUnavailable 3 s.frameLen)) ∧
    (s.status.linkOpen = true → ∀ acks k, Acked s false acks k →
      exec .sendRequest s = .next
        (State.finish
          { s with
            encoded := [s.req.opcode, s.req.param]
            linkLog := s.linkLog ++ [.linkWrite [s.req.opcode, s.req.param]], linkAcks := acks, draws := k }
          .deviceUnavailable 3 s.frameLen)) ∧
    (s.status.linkOpen = true → ∀ acks k, Acked s true acks k → ∀ ok acks' k',
      Acked { s with linkAcks := acks, draws := k } ok acks' k' →
      exec .sendRequest s = .next
        (State.finish
          { s with
            encoded := [s.req.opcode, s.req.param]
            linkLog := s.linkLog ++ [.linkWrite [s.req.opcode, s.req.param], .linkFlush]
            linkAcks := acks', draws := k' }
          (if ok then .none else .deviceUnavailable) (if ok then 0 else 3) (if ok then 0 else s.frameLen)))

/-- R105: the request encoder gives the two bytes, opcode first, for every pair of signed 8-bit values, is the identity
on the bytes of `REQ`, and changes nothing in the block. No rule says what executing a REQUEST row does: that it is one
run of the encoder, whose output `encoded` holds, is the model's choice (DESIGN CHOICE, log entry 13). -/
def Obligations.RequestIsTheTwoBytes : Prop :=
  (∀ opc param : Int, -128 ≤ opc → opc ≤ 127 → -128 ≤ param → param ≤ 127 →
    encodeRequest opc param = [BitVec.ofInt 8 opc, BitVec.ofInt 8 param]) ∧
  encodeRequest (-73) 0 = [0xB7, 0x00] ∧
  (∀ opcode param : Byte, encodeRequest (s8 opcode) (s8 param) = [opcode, param]) ∧
  ∀ (s : State) (opcode param : Byte),
    exec (.request opcode param) s = .next { s with encoded := [opcode, param] }

/-- R87, R108: a response the device sends is queued in the device whole, header first, for the reads to come, and
changes nothing in the block. How it reaches `FRAME` is `AccumulatedResponseLiesInFrame`. The queue is the model's own
(log entry 14). -/
def Obligations.ResponseIsLinedUpForTheReads : Prop :=
  ∀ (s : State) (mode width height : Byte) (mosaic : List Byte),
    exec (.response mode width height mosaic) s =
      .next { s with linkQueue := s.linkQueue ++ mode :: width :: height :: mosaic }

/-- R100, R108, R122: every answer of a read is `fail` or a chunk of at most the bytes asked for, and the read touches no
register, no memory and no hidden state. Each such answer is one the link can give, whatever is queued in the device: a
read for which the state says so fails, or is given what the device then holds (the bytes queued with those that came in
behind them, or, of a link that loses or alters bytes, any bytes), as far as it asked for, and the bytes beyond stay
queued. The queue and what the state says of the link are the model's own (log entries 4 and 5). -/
def Obligations.LinkReadsKeepTheContract : Prop :=
  ∀ (s : State) (r : Nat),
    (∃ answer rx queue k,
      s.linkRead r =
          (answer,
            { s with linkLog := s.linkLog ++ [.linkRead r], linkRx := rx, linkQueue := queue, draws := k }) ∧
        ∀ chunk, answer = some chunk → chunk.length ≤ r) ∧
    (∀ rest, s.linkRx = .fail :: rest → (s.linkRead r).1 = none) ∧
    ∀ held rest,
      (s.linkRx = .altered held :: rest ∨
          ∃ bytes, s.linkRx = .chunk bytes :: rest ∧ held = s.linkQueue ++ bytes) →
        (held.length ≤ r →
          s.linkRead r =
            (some held, { s with linkLog := s.linkLog ++ [.linkRead r], linkRx := rest, linkQueue := [] })) ∧
        (r ≤ held.length →
          ∃ chunk left, chunk.length = r ∧ chunk ++ left = held ∧
            s.linkRead r =
              (some chunk, { s with linkLog := s.linkLog ++ [.linkRead r], linkRx := rest, linkQueue := left }))

/-- R87: a response received in one read into an empty frame lies in `FRAME` at the offsets of the format: mode, width,
height, and sample `(x, y)` at `3 + y*w + x`. -/
def Obligations.AccumulatedResponseLiesInFrame : Prop :=
  ∀ (s : State) (mode width height : Byte) (mosaic : List Byte) (rx : List RxItem)
    (queue : List Byte) (k : Nat),
    s.turn = .engine → s.accStarted = true → s.frameLen = 0 → mosaic.length = width.toNat * height.toNat →
    ReadAnswered s (some (mode :: width :: height :: mosaic)) rx queue k →
    ∃ t, exec .accumulate s = .next t ∧
      t.peek .frame 0 = mode ∧ t.peek .frame 1 = width ∧ t.peek .frame 2 = height ∧
      (∀ x y, x < width.toNat → y < height.toNat →
        some (t.peek .frame (3 + y * width.toNat + x)) = mosaic[y * width.toNat + x]?) ∧
      t.frameLen = BitVec.ofNat 32 (3 + width.toNat * height.toNat)

/-! ### The accumulator -/

/-- R121: the start step of ACCUMULATE, its checks in order; counters and latch are written once the first two
passed. -/
def Obligations.AccumulateStartChecksInOrder : Prop :=
  ∀ s : State, s.turn = .engine → s.accStarted = false →
    (s.status.linkOpen = false → exec .accumulate s = .next (s.finish .deviceUnavailable 4 s.frameLen)) ∧
    (s.status.linkOpen = true → (s.accExpected.toNat : Int) > (Config.frameCap : Int) - s.frameLen.toNat →
      exec .accumulate s = .next
        (s.finish .bufferOverflow s.accExpected (BitVec.ofInt 32 ((Config.frameCap : Int) - s.frameLen.toNat)))) ∧
    (s.status.linkOpen = true → (s.accExpected.toNat : Int) ≤ (Config.frameCap : Int) - s.frameLen.toNat →
      let s1 : State := { s with accCount := 0, accAttempts := 0, accMax := s.cfgAcc.maxAttempts }
      (s.accExpected = 0 → exec .accumulate s = .next (s1.finish .none 0 0)) ∧
      (s.accExpected ≠ 0 → s.cfgAcc.maxAttempts = 0 →
        exec .accumulate s = .next (s1.finish .acquisitionTimeout 0 s.accExpected)) ∧
      (s.accExpected ≠ 0 → s.cfgAcc.maxAttempts ≠ 0 → exec .accumulate s = .next { s1 with accStarted := true }))

/-- R123, R124, R126: a read step of ACCUMULATE asks for the bytes missing and counts the read; a failed read ends the
command with DEVICE_UNAVAILABLE; otherwise the chunk is appended and success is tested before the budget. -/
def Obligations.AccumulateReadStep : Prop :=
  ∀ s : State, s.turn = .engine → s.accStarted = true → ∀ answer rx queue k, ReadAnswered s answer rx queue k →
    let s1 : State :=
      { s with
        accAttempts := s.accAttempts + 1, linkLog := s.linkLog ++ [.linkRead s.missing]
        linkRx := rx, linkQueue := queue, draws := k }
    (answer = none → exec .accumulate s = .next (s1.finish .deviceUnavailable 4 s.frameLen)) ∧
    (∀ chunk, answer = some chunk →
      let n := BitVec.ofNat 32 chunk.length
      let s2 : State :=
        { s1 with
          frame := s.frame.writeBlock s.frameLen.toNat chunk
          frameLen := s.frameLen + n
          accCount := s.accCount + n }
      (s2.accCount = s.accExpected → exec .accumulate s = .next (s2.finish .none 0 0)) ∧
      (s2.accCount ≠ s.accExpected → s2.accAttempts = s.accMax.setWidth 32 →
        exec .accumulate s = .next (s2.finish .acquisitionTimeout s2.accCount s.accExpected)) ∧
      (s2.accCount ≠ s.accExpected → s2.accAttempts ≠ s.accMax.setWidth 32 → exec .accumulate s = .next s2))

/-- R127: the bytes of a read lie in `FRAME` from `FRAME_LEN` on, in the order the link gave them, and every other byte
of every space reads as before. -/
def Obligations.ReadBytesKeepArrivalOrder : Prop :=
  ∀ (s : State) (chunk : List Byte) (rx : List RxItem) (queue : List Byte) (k : Nat),
    s.turn = .engine → s.accStarted = true → ReadAnswered s (some chunk) rx queue k →
    ∃ t, exec .accumulate s = .next t ∧
      (∀ i, i < chunk.length → some (t.peek .frame (s.frameLen.toNat + i)) = chunk[i]?) ∧
      (∀ space addr,
        ¬(space = .frame ∧ s.frameLen.toNat ≤ addr ∧ addr < s.frameLen.toNat + chunk.length) →
          t.peek space addr = s.peek space addr)

/-- R128: an accumulation under way ends within the reads its budget still has, each step one read. -/
def Obligations.AccumulateEndsWithinItsBudget : Prop :=
  ∀ s : State, Inv s → s.schedule = [] → s.status.busy = true → s.curOp = 0x03 → s.accStarted = true →
    ∃ (k : Nat) (t : State), k ≤ s.accMax.toNat - s.accAttempts.toNat ∧ core.run k s = .next t ∧
      t.status.busy = false ∧ t.accAttempts.toNat = s.accAttempts.toNat + k ∧ t.linkLog.length = s.linkLog.length + k

/-- R129: a link that holds nothing and always answers 0 bytes ends an accumulation of `E > 0` bytes with
ACQUISITION_TIMEOUT after exactly `m` reads, with `ACC_COUNT = 0`. -/
def Obligations.SilentLinkTimesOutAfterExactlyTheBudget : Prop :=
  ∀ (s : State) (rest : List RxItem), s.schedule = [] → s.status.busy = true → s.curOp = 0x03 → s.accStarted = true →
    s.accCount = 0 → s.accAttempts = 0 → s.accExpected ≠ 0 → s.accMax ≠ 0 →
    s.linkQueue = [] → s.linkRx = List.replicate s.accMax.toNat (.chunk []) ++ rest →
    (∀ k, k < s.accMax.toNat → ∃ t, core.run k s = .next t ∧ t.status.busy = true) ∧
    ∃ t, core.run s.accMax.toNat s = .next t ∧ t.status.busy = false ∧ t.status.err = .acquisitionTimeout ∧
      t.accCount = 0 ∧ t.accAttempts = s.accMax.setWidth 32 ∧ t.errInfo0 = 0 ∧ t.errInfo1 = s.accExpected ∧
      ∀ space addr, t.peek space addr = s.peek space addr

/-- R129: a link whose answers are nonzero chunks that sum to `E` ends an accumulation with success after exactly one
read a chunk, whenever the budget allows that many, and the bytes lie in `FRAME` in their order. -/
def Obligations.ChunkedLinkFillsTheWindow : Prop :=
  ∀ (s : State) (chunks : List (List Byte)), s.schedule = [] → s.status.busy = true → s.curOp = 0x03 →
    s.accStarted = true → s.accCount = 0 → s.accAttempts = 0 → chunks ≠ [] → (∀ chunk ∈ chunks, chunk ≠ []) →
    chunks.flatten.length = s.accExpected.toNat → chunks.length ≤ s.accMax.toNat →
    s.frameLen.toNat + s.accExpected.toNat ≤ Config.frameCap → s.linkQueue = [] → s.linkRx = chunks.map .chunk →
    ∃ t, core.run chunks.length s = .next t ∧ t.status.busy = false ∧ t.status.err = .none ∧
      t.accCount = s.accExpected ∧ t.accAttempts = BitVec.ofNat 32 chunks.length ∧
      t.frameLen = s.frameLen + s.accExpected ∧
      ∀ i, i < s.accExpected.toNat → some (t.peek .frame (s.frameLen.toNat + i)) = chunks.flatten[i]?

/-! ### The parser -/

/-- R141, R143, R144, R146, R147: the three exits of PARSE. A frame shorter than 3 bytes clears `HDR.VALID` only; a
payload of another length than the header declares leaves the header fields with `VALID = 0`; otherwise the payload is
copied unmodified to `MOSAIC[0..]`, every other byte as before. -/
def Obligations.ParseSplitsTheFrame : Prop :=
  encode .parse = .cmd 0x00000002 ∧
  ∀ s : State, s.turn = .engine →
    (s.frameLen.toNat < 3 →
      exec .parse s = .next
        (State.finish { s with hdr := { s.hdr with valid := false } } .malformedFrame s.frameLen 3)) ∧
    (3 ≤ s.frameLen.toNat →
      let n := (s.peek .frame 1).toNat * (s.peek .frame 2).toNat
      let hdr : Hdr := { mode := s.peek .frame 0, width := s.peek .frame 1, height := s.peek .frame 2, valid := false }
      (s.frameLen.toNat - 3 ≠ n →
        exec .parse s = .next
          (State.finish { s with hdr := hdr } .malformedFrame s.frameLen (BitVec.ofNat 32 (3 + n)))) ∧
      (s.frameLen.toNat - 3 = n →
        ∃ t, exec .parse s = .next t ∧
          (∀ i, i < n → t.peek .mosaic i = s.peek .frame (3 + i)) ∧
          (∀ space addr, ¬(space = .mosaic ∧ addr < n) → t.peek space addr = s.peek space addr) ∧
          t = State.finish { s with hdr := { hdr with valid := true }, mosaic := t.mosaic } .none 0 0))

/-! ### The demosaic unit -/

/-- R12, R169, R170, R175: DEMOSAIC with a legal pattern completes: it writes R, G and B of each pixel of the `CFG_DIM`
image at the pixel's three consecutive bytes, leaves every other byte of every space, sets `OUT_DIM` and changes nothing
else. What the value of a channel is says `ClampNeverChangesAValue`. -/
def Obligations.DemosaicWritesTheImage : Prop :=
  encode .demosaic = .cmd 0x00000001 ∧
  ∀ (s : State) (layout : Layout), s.turn = .engine → layoutOfPattern s.cfgDemosaic.pattern = some layout →
    let a := demosaicArgs s layout s.cfgDim
    ∃ t, exec .demosaic s = .next t ∧
      (∀ x y, x < a.width → y < a.height →
        t.peek .rgb (3 * (y * a.width + x)) = a.q (s.peek .mosaic) x y .r ∧
        t.peek .rgb (3 * (y * a.width + x) + 1) = a.q (s.peek .mosaic) x y .g ∧
        t.peek .rgb (3 * (y * a.width + x) + 2) = a.q (s.peek .mosaic) x y .b) ∧
      (∀ space addr, ¬(space = .rgb ∧ addr < 3 * (a.width * a.height)) → t.peek space addr = s.peek space addr) ∧
      t = State.finish { s with rgb := t.rgb, outDim := s.cfgDim } .none 0 0

/-- R160, R171: the layout of each pattern code with its 2×2 block in raster order, by which the channel of a site
goes; a code above 3 has none and is rejected before anything is written, and `ERR_INFO0` is the pattern. -/
def Obligations.DemosaicRejectsUnsupportedPatterns : Prop :=
  ∀ s : State,
    (s.turn = .engine → 3 < s.cfgDemosaic.pattern.toNat →
      exec .demosaic s = .next (s.finish .unsupportedPattern (s.cfgDemosaic.pattern.setWidth 32) 0)) ∧
    (layoutOfPattern s.cfgDemosaic.pattern = none ↔ 3 < s.cfgDemosaic.pattern.toNat) ∧
    [0, 1, 2, 3].map layoutOfPattern = [some .rggb, some .grbg, some .gbrg, some .bggr] ∧
    [Layout.rggb, .grbg, .gbrg, .bggr].map (fun layout => [layout.at 0 0, layout.at 0 1, layout.at 1 0, layout.at 1 1]) =
      [[.r, .g, .g, .b], [.g, .r, .b, .g], [.g, .b, .r, .g], [.b, .g, .g, .r]] ∧
    ∀ (layout : Layout) (x y : Nat), native layout x y = layout.at (y % 2) (x % 2)

/-- R163, R164: the offsets of each class, right and down positive; the native channel of every site and its class for
every channel, by pattern and parity, as the expanded table gives them. -/
def Obligations.SiteClassesFollowTheTable : Prop :=
  (SiteClass.offsets .own = [(0, 0)] ∧ SiteClass.offsets .cross = [(0, -1), (-1, 0), (1, 0), (0, 1)] ∧
    SiteClass.offsets .diag = [(-1, -1), (1, -1), (-1, 1), (1, 1)] ∧ SiteClass.offsets .lineH = [(-1, 0), (1, 0)] ∧
    SiteClass.offsets .lineV = [(0, -1), (0, 1)]) ∧
  ∀ x y : Nat,
    let row (layout : Layout) :=
      (native layout x y, siteClass layout x y .r, siteClass layout x y .g, siteClass layout x y .b)
    (y % 2 = 0 → x % 2 = 0 →
      row .rggb = (.r, .own, .cross, .diag) ∧ row .grbg = (.g, .lineH, .own, .lineV) ∧
      row .gbrg = (.g, .lineV, .own, .lineH) ∧ row .bggr = (.b, .diag, .cross, .own)) ∧
    (y % 2 = 0 → x % 2 = 1 →
      row .rggb = (.g, .lineH, .own, .lineV) ∧ row .grbg = (.r, .own, .cross, .diag) ∧
      row .gbrg = (.b, .diag, .cross, .own) ∧ row .bggr = (.g, .lineV, .own, .lineH)) ∧
    (y % 2 = 1 → x % 2 = 0 →
      row .rggb = (.g, .lineV, .own, .lineH) ∧ row .grbg = (.b, .diag, .cross, .own) ∧
      row .gbrg = (.r, .own, .cross, .diag) ∧ row .bggr = (.g, .lineH, .own, .lineV)) ∧
    (y % 2 = 1 → x % 2 = 1 →
      row .rggb = (.b, .diag, .cross, .own) ∧ row .grbg = (.g, .lineV, .own, .lineH) ∧
      row .gbrg = (.g, .lineH, .own, .lineV) ∧ row .bggr = (.r, .own, .cross, .diag))

/-- R165, R166: the coordinate that each border mode gives for `-1` and for `n` in a dimension of size `n`, a coordinate
inside it being kept; and so under either mode every neighbour of a site lies inside the mosaic of the image. -/
def Obligations.NeighboursLieInTheMosaic : Prop :=
  (∀ n : Nat, 1 ≤ n →
    Border.index .mirror (-1) n = (if n = 1 then 0 else 1) ∧
    Border.index .mirror (n : Int) n = (if n = 1 then 0 else n - 2) ∧
    Border.index .clamp (-1) n = 0 ∧ Border.index .clamp (n : Int) n = n - 1 ∧
    ∀ (border : Border) (i : Nat), i < n → Border.index border (i : Int) n = i) ∧
  ∀ (a : DemosaicArgs) (x y : Nat) (c : Channel) (offset : Int × Int), x < a.width → y < a.height →
    offset ∈ (siteClass a.layout x y c).offsets → a.neighbour x y offset < a.width * a.height

/-- R173: under MIRROR with `W >= 2` and `H >= 2` every sample of a channel comes from a site whose native channel is
that channel. -/
def Obligations.MirrorSamplesTheSameChannel : Prop :=
  ∀ (a : DemosaicArgs) (x y : Nat) (c : Channel) (offset : Int × Int), a.border = .mirror → 2 ≤ a.width →
    2 ≤ a.height → x < a.width → y < a.height → offset ∈ (siteClass a.layout x y c).offsets →
    native a.layout (Border.index a.border ((x : Int) + offset.1) a.width)
      (Border.index a.border ((y : Int) + offset.2) a.height) = c

/-- R167, R168, R174: a channel's value is the mean of its `k` samples, `sum / k`, rounded as the mode says (under HALF_UP
the whole number at most one half above it and less than one half below it, under TRUNC its whole part); the rounded
value never exceeds 255, so the clamp never changes it; and a channel at a site of its own class is the site's own
sample. -/
def Obligations.ClampNeverChangesAValue : Prop :=
  ∀ (a : DemosaicArgs) (mosaic : Nat → Byte) (x y : Nat) (c : Channel),
    let samples :=
      (siteClass a.layout x y c).offsets.map fun offset =>
        (mosaic
          (Border.index a.border ((y : Int) + offset.2) a.height * a.width +
            Border.index a.border ((x : Int) + offset.1) a.width)).toNat
    let sum := samples.sum
    let k := samples.length
    let value := (a.q mosaic x y c).toNat
    (a.rounding = .halfUp → 2 * (k * value) ≤ 2 * sum + k ∧ 2 * sum < 2 * (k * value) + k) ∧
    (a.rounding = .trunc → k * value ≤ sum ∧ sum < k * value + k) ∧
    a.rounded mosaic x y c ≤ 255 ∧ (a.q mosaic x y c).toNat = a.rounded mosaic x y c ∧
    (x < a.width → y < a.height → native a.layout x y = c → a.q mosaic x y c = mosaic (y * a.width + x))

/-- R172: two runs with equal operands write equal `RGB` bytes, whatever else the states hold. -/
def Obligations.DemosaicIsPure : Prop :=
  ∀ s s' t t' : State, s.turn = .engine → s'.turn = .engine → s.cfgDim = s'.cfgDim → s.cfgDemosaic = s'.cfgDemosaic →
    s.cfgDemosaic.pattern.toNat ≤ 3 →
    (∀ i, i < s.cfgDim.width.toNat * s.cfgDim.height.toNat → s.peek .mosaic i = s'.peek .mosaic i) →
    exec .demosaic s = .next t → exec .demosaic s' = .next t' →
    ∀ i, i < 3 * (s.cfgDim.width.toNat * s.cfgDim.height.toNat) → t.peek .rgb i = t'.peek .rgb i

/-! ### CAPTURE -/

/-- R206, R207: the stages CHECK and OPEN of CAPTURE. -/
def Obligations.CaptureChecksThePatternThenOpens : Prop :=
  ∀ s : State, s.turn = .engine →
    (s.capPhase = .check → s.openedHere = false → 3 < s.cfgDemosaic.pattern.toNat →
      exec .capture s = .next
        (State.finish { s with status := { s.status with seqState := .unsupportedPattern } }
          .unsupportedPattern (s.cfgDemosaic.pattern.setWidth 32) 0)) ∧
    (s.capPhase = .check → s.cfgDemosaic.pattern.toNat ≤ 3 →
      exec .capture s = .next { s with capPhase := .openLink }) ∧
    (s.capPhase = .openLink → s.status.linkOpen = true →
      exec .capture s = .next { s with capPhase := .resetLink }) ∧
    (s.capPhase = .openLink → s.status.linkOpen = false → ∀ ok acks k, Acked s ok acks k →
      let s1 : State := { s with linkLog := s.linkLog ++ [.linkOpen], linkAcks := acks, draws := k }
      exec .capture s = .next
        (if ok then
          { s1 with status := { s.status with linkOpen := true }, openedHere := true, capPhase := .resetLink }
        else s1.failCapture .deviceUnavailable 1 s.frameLen))

/-- R208: the stages RESET and SEND of CAPTURE; the link's reset discards the bytes queued in the device. R208 does not
say what a device that answers `fail` then holds: it is free, the model's choice (log entry 28). -/
def Obligations.CaptureResetsTheLinkThenSends : Prop :=
  ∀ s : State, s.turn = .engine →
    (s.capPhase = .resetLink → ∀ ok acks k, Acked s ok acks k →
      let s1 : State := { s with linkLog := s.linkLog ++ [.linkReset], linkAcks := acks, draws := k }
      exec .capture s = .next
        (if ok then { s1 with frameLen := 0, linkQueue := [], capPhase := .sendRequest }
        else
          State.failCapture { s1 with linkQueue := Config.linkLeft k, draws := k + 1 }
            .deviceUnavailable 2 s.frameLen)) ∧
    (s.capPhase = .sendRequest → ∀ acks k, Acked s false acks k →
      exec .capture s = .next
        (State.failCapture
          { s with
            encoded := [s.req.opcode, s.req.param]
            linkLog := s.linkLog ++ [.linkWrite [s.req.opcode, s.req.param]], linkAcks := acks, draws := k }
          .deviceUnavailable 3 s.frameLen)) ∧
    (s.capPhase = .sendRequest → ∀ acks k, Acked s true acks k → ∀ ok acks' k',
      Acked { s with linkAcks := acks, draws := k } ok acks' k' →
      let s1 : State :=
        { s with
          encoded := [s.req.opcode, s.req.param]
          linkLog := s.linkLog ++ [.linkWrite [s.req.opcode, s.req.param], .linkFlush]
          linkAcks := acks', draws := k' }
      exec .capture s = .next
        (if ok then { s1 with status := { s.status with seqState := .commandSent }, capPhase := .accInit }
        else s1.failCapture .deviceUnavailable 3 s.frameLen))

/-- R210: the stage ACC_INIT of CAPTURE: the window of each length policy, and the timeout of an empty budget. -/
def Obligations.CaptureOpensTheWindow : Prop :=
  ∀ s : State, s.turn = .engine → s.capPhase = .accInit →
    let s1 (window : Word) (pending : Bool) : State :=
      { s with
        status := { s.status with seqState := .accumulating }
        accCount := 0, accAttempts := 0, accMax := s.cfgAcc.maxAttempts
        accExpected := window, accHdrPending := pending }
    let configured := BitVec.ofNat 32 (3 + s.cfgDim.width.toNat * s.cfgDim.height.toNat)
    (s.cfgAcc.lengthPolicy = .configured → s.cfgAcc.maxAttempts = 0 →
      exec .capture s = .next ((s1 configured false).failCapture .acquisitionTimeout 0 configured)) ∧
    (s.cfgAcc.lengthPolicy = .configured → s.cfgAcc.maxAttempts ≠ 0 →
      exec .capture s = .next { s1 configured false with capPhase := .accRead }) ∧
    (s.cfgAcc.lengthPolicy = .headerFirst → s.cfgAcc.maxAttempts = 0 →
      exec .capture s = .next ((s1 3 true).failCapture .acquisitionTimeout 0 3)) ∧
    (s.cfgAcc.lengthPolicy = .headerFirst → s.cfgAcc.maxAttempts ≠ 0 →
      exec .capture s = .next { s1 3 true with capPhase := .accRead })

/-- R210, R132: the stage ACC_READ of CAPTURE: the read step, the header hook before the completion test, and the three
ways on. -/
def Obligations.CaptureReadStep : Prop :=
  ∀ s : State, s.turn = .engine → s.capPhase = .accRead → ∀ answer rx queue k, ReadAnswered s answer rx queue k →
    let s1 : State :=
      { s with
        accAttempts := s.accAttempts + 1, linkLog := s.linkLog ++ [.linkRead s.missing]
        linkRx := rx, linkQueue := queue, draws := k }
    (answer = none → exec .capture s = .next (s1.failCapture .deviceUnavailable 4 s.frameLen)) ∧
    (∀ chunk, answer = some chunk →
      let n := BitVec.ofNat 32 chunk.length
      let s2 : State :=
        { s1 with
          frame := s.frame.writeBlock s.frameLen.toNat chunk
          frameLen := s.frameLen + n
          accCount := s.accCount + n }
      let s3 : State :=
        if s.accHdrPending = true ∧ s2.accCount = 3 then
          { s2 with
            accHdrPending := false
            accExpected := BitVec.ofNat 32 (3 + (s2.peek .frame 1).toNat * (s2.peek .frame 2).toNat) }
        else s2
      (s3.accCount = s3.accExpected → exec .capture s = .next { s3 with capPhase := .parse }) ∧
      (s3.accCount ≠ s3.accExpected → s3.accAttempts = s.accMax.setWidth 32 →
        exec .capture s = .next (s3.failCapture .acquisitionTimeout s3.accCount s3.accExpected)) ∧
      (s3.accCount ≠ s3.accExpected → s3.accAttempts ≠ s.accMax.setWidth 32 → exec .capture s = .next s3))

/-- R211, R212: the stages PARSE and DEMOSAIC of CAPTURE, success and failure; the image has the header's dimensions,
and a link this CAPTURE opened is closed at the end. -/
def Obligations.CaptureParsesThenDemosaics : Prop :=
  ∀ s : State, s.turn = .engine →
    (s.capPhase = .parse → s.frameLen.toNat < 3 →
      exec .capture s = .next
        (State.failCapture { s with hdr := { s.hdr with valid := false } } .malformedFrame s.frameLen 3)) ∧
    (s.capPhase = .parse → 3 ≤ s.frameLen.toNat →
      let n := (s.peek .frame 1).toNat * (s.peek .frame 2).toNat
      let hdr : Hdr := { mode := s.peek .frame 0, width := s.peek .frame 1, height := s.peek .frame 2, valid := false }
      (s.frameLen.toNat - 3 ≠ n →
        exec .capture s = .next
          (State.failCapture { s with hdr := hdr } .malformedFrame s.frameLen (BitVec.ofNat 32 (3 + n)))) ∧
      (s.frameLen.toNat - 3 = n →
        ∃ t, exec .capture s = .next t ∧
          (∀ i, i < n → t.peek .mosaic i = s.peek .frame (3 + i)) ∧
          (∀ space addr, ¬(space = .mosaic ∧ addr < n) → t.peek space addr = s.peek space addr) ∧
          t =
            { s with
              hdr := { hdr with valid := true }
              mosaic := t.mosaic
              status := { s.status with seqState := .headerParsed }
              capPhase := .demosaic })) ∧
    (s.capPhase = .demosaic → ∀ layout, layoutOfPattern s.cfgDemosaic.pattern = some layout →
      let dim : Dim := { width := s.hdr.width, height := s.hdr.height }
      let a := demosaicArgs s layout dim
      ∃ t, exec .capture s = .next t ∧
        (∀ x y, x < a.width → y < a.height →
          t.peek .rgb (3 * (y * a.width + x)) = a.q (s.peek .mosaic) x y .r ∧
          t.peek .rgb (3 * (y * a.width + x) + 1) = a.q (s.peek .mosaic) x y .g ∧
          t.peek .rgb (3 * (y * a.width + x) + 2) = a.q (s.peek .mosaic) x y .b) ∧
        (∀ space addr, ¬(space = .rgb ∧ addr < 3 * (a.width * a.height)) → t.peek space addr = s.peek space addr) ∧
        t =
          State.finish
            { s with
              rgb := t.rgb
              outDim := dim
              status :=
                { s.status with
                  seqState := .demosaiced
                  linkOpen := if s.openedHere then false else s.status.linkOpen }
              linkLog := if s.openedHere then s.linkLog ++ [.linkClose] else s.linkLog
              openedHere := false }
            .none 0 0)

/-- R211: under HEADER_FIRST the PARSE stage of a CAPTURE that meets the invariant cannot fail. -/
def Obligations.HeaderFirstCaptureIsNeverMalformed : Prop :=
  ∀ s : State, Inv s → s.status.busy = true → s.curOp = 0x06 → s.capPhase = .parse →
    s.cfgAcc.lengthPolicy = .headerFirst → s.schedule = [] →
    ∃ t, step s = .next t ∧ t.status.busy = true ∧ t.capPhase = .demosaic ∧ t.status.seqState = .headerParsed ∧
      t.hdr.valid = true
end

