-- ==== Sys2Proof/Laws/State.lean ====
section
/-! SUPPORT. For each plain update of the state, one lemma per field, true by rfl, so that no later proof unfolds a
record update. -/

namespace Sys2Proof.Machine

open Sys2Proof

/-! ### `State.finish` -/

@[simp] theorem State.finish_status (s : State) (code : ErrCode) (info0 info1 : Word) : (s.finish code info0 info1).status =
    { s.status with err := code, busy := false, done := true } := rfl
@[simp] theorem State.finish_cfgDim (s : State) (code : ErrCode) (info0 info1 : Word) : (s.finish code info0 info1).cfgDim =
    s.cfgDim := rfl
@[simp] theorem State.finish_cfgDemosaic (s : State) (code : ErrCode) (info0 info1 : Word) : (s.finish code info0 info1).cfgDemosaic =
    s.cfgDemosaic := rfl
@[simp] theorem State.finish_cfgAcc (s : State) (code : ErrCode) (info0 info1 : Word) : (s.finish code info0 info1).cfgAcc =
    s.cfgAcc := rfl
@[simp] theorem State.finish_accExpected (s : State) (code : ErrCode) (info0 info1 : Word) : (s.finish code info0 info1).accExpected =
    s.accExpected := rfl
@[simp] theorem State.finish_accCount (s : State) (code : ErrCode) (info0 info1 : Word) : (s.finish code info0 info1).accCount =
    s.accCount := rfl
@[simp] theorem State.finish_accAttempts (s : State) (code : ErrCode) (info0 info1 : Word) : (s.finish code info0 info1).accAttempts =
    s.accAttempts := rfl
@[simp] theorem State.finish_frameLen (s : State) (code : ErrCode) (info0 info1 : Word) : (s.finish code info0 info1).frameLen =
    s.frameLen := rfl
@[simp] theorem State.finish_hdr (s : State) (code : ErrCode) (info0 info1 : Word) : (s.finish code info0 info1).hdr =
    s.hdr := rfl
@[simp] theorem State.finish_req (s : State) (code : ErrCode) (info0 info1 : Word) : (s.finish code info0 info1).req =
    s.req := rfl
@[simp] theorem State.finish_errInfo0 (s : State) (code : ErrCode) (info0 info1 : Word) : (s.finish code info0 info1).errInfo0 =
    info0 := rfl
@[simp] theorem State.finish_errInfo1 (s : State) (code : ErrCode) (info0 info1 : Word) : (s.finish code info0 info1).errInfo1 =
    info1 := rfl
@[simp] theorem State.finish_outDim (s : State) (code : ErrCode) (info0 info1 : Word) : (s.finish code info0 info1).outDim =
    s.outDim := rfl
@[simp] theorem State.finish_mosaic (s : State) (code : ErrCode) (info0 info1 : Word) : (s.finish code info0 info1).mosaic =
    s.mosaic := rfl
@[simp] theorem State.finish_rgb (s : State) (code : ErrCode) (info0 info1 : Word) : (s.finish code info0 info1).rgb =
    s.rgb := rfl
@[simp] theorem State.finish_frame (s : State) (code : ErrCode) (info0 info1 : Word) : (s.finish code info0 info1).frame =
    s.frame := rfl
@[simp] theorem State.finish_curOp (s : State) (code : ErrCode) (info0 info1 : Word) : (s.finish code info0 info1).curOp =
    s.curOp := rfl
@[simp] theorem State.finish_capPhase (s : State) (code : ErrCode) (info0 info1 : Word) : (s.finish code info0 info1).capPhase =
    s.capPhase := rfl
@[simp] theorem State.finish_openedHere (s : State) (code : ErrCode) (info0 info1 : Word) : (s.finish code info0 info1).openedHere =
    s.openedHere := rfl
@[simp] theorem State.finish_accMax (s : State) (code : ErrCode) (info0 info1 : Word) : (s.finish code info0 info1).accMax =
    s.accMax := rfl
@[simp] theorem State.finish_accHdrPending (s : State) (code : ErrCode) (info0 info1 : Word) : (s.finish code info0 info1).accHdrPending =
    s.accHdrPending := rfl
@[simp] theorem State.finish_accStarted (s : State) (code : ErrCode) (info0 info1 : Word) : (s.finish code info0 info1).accStarted =
    s.accStarted := rfl
@[simp] theorem State.finish_hostReply (s : State) (code : ErrCode) (info0 info1 : Word) : (s.finish code info0 info1).hostReply =
    s.hostReply := rfl
@[simp] theorem State.finish_encoded (s : State) (code : ErrCode) (info0 info1 : Word) : (s.finish code info0 info1).encoded =
    s.encoded := rfl
@[simp] theorem State.finish_linkLog (s : State) (code : ErrCode) (info0 info1 : Word) : (s.finish code info0 info1).linkLog =
    s.linkLog := rfl
@[simp] theorem State.finish_linkAcks (s : State) (code : ErrCode) (info0 info1 : Word) : (s.finish code info0 info1).linkAcks =
    s.linkAcks := rfl
@[simp] theorem State.finish_linkRx (s : State) (code : ErrCode) (info0 info1 : Word) : (s.finish code info0 info1).linkRx =
    s.linkRx := rfl
@[simp] theorem State.finish_linkQueue (s : State) (code : ErrCode) (info0 info1 : Word) : (s.finish code info0 info1).linkQueue =
    s.linkQueue := rfl
@[simp] theorem State.finish_draws (s : State) (code : ErrCode) (info0 info1 : Word) : (s.finish code info0 info1).draws =
    s.draws := rfl
@[simp] theorem State.finish_schedule (s : State) (code : ErrCode) (info0 info1 : Word) : (s.finish code info0 info1).schedule =
    s.schedule := rfl
@[simp] theorem State.finish_turn (s : State) (code : ErrCode) (info0 info1 : Word) : (s.finish code info0 info1).turn =
    s.turn := rfl

/-! ### `State.finishOk` -/

@[simp] theorem State.finishOk_status (s : State) : s.finishOk.status =
    { s.status with err := .none, busy := false, done := true } := rfl
@[simp] theorem State.finishOk_cfgDim (s : State) : s.finishOk.cfgDim = s.cfgDim := rfl
@[simp] theorem State.finishOk_cfgDemosaic (s : State) : s.finishOk.cfgDemosaic = s.cfgDemosaic := rfl
@[simp] theorem State.finishOk_cfgAcc (s : State) : s.finishOk.cfgAcc = s.cfgAcc := rfl
@[simp] theorem State.finishOk_accExpected (s : State) : s.finishOk.accExpected = s.accExpected := rfl
@[simp] theorem State.finishOk_accCount (s : State) : s.finishOk.accCount = s.accCount := rfl
@[simp] theorem State.finishOk_accAttempts (s : State) : s.finishOk.accAttempts = s.accAttempts := rfl
@[simp] theorem State.finishOk_frameLen (s : State) : s.finishOk.frameLen = s.frameLen := rfl
@[simp] theorem State.finishOk_hdr (s : State) : s.finishOk.hdr = s.hdr := rfl
@[simp] theorem State.finishOk_req (s : State) : s.finishOk.req = s.req := rfl
@[simp] theorem State.finishOk_errInfo0 (s : State) : s.finishOk.errInfo0 = 0 := rfl
@[simp] theorem State.finishOk_errInfo1 (s : State) : s.finishOk.errInfo1 = 0 := rfl
@[simp] theorem State.finishOk_outDim (s : State) : s.finishOk.outDim = s.outDim := rfl
@[simp] theorem State.finishOk_mosaic (s : State) : s.finishOk.mosaic = s.mosaic := rfl
@[simp] theorem State.finishOk_rgb (s : State) : s.finishOk.rgb = s.rgb := rfl
@[simp] theorem State.finishOk_frame (s : State) : s.finishOk.frame = s.frame := rfl
@[simp] theorem State.finishOk_curOp (s : State) : s.finishOk.curOp = s.curOp := rfl
@[simp] theorem State.finishOk_capPhase (s : State) : s.finishOk.capPhase = s.capPhase := rfl
@[simp] theorem State.finishOk_openedHere (s : State) : s.finishOk.openedHere = s.openedHere := rfl
@[simp] theorem State.finishOk_accMax (s : State) : s.finishOk.accMax = s.accMax := rfl
@[simp] theorem State.finishOk_accHdrPending (s : State) : s.finishOk.accHdrPending = s.accHdrPending := rfl
@[simp] theorem State.finishOk_accStarted (s : State) : s.finishOk.accStarted = s.accStarted := rfl
@[simp] theorem State.finishOk_hostReply (s : State) : s.finishOk.hostReply = s.hostReply := rfl
@[simp] theorem State.finishOk_encoded (s : State) : s.finishOk.encoded = s.encoded := rfl
@[simp] theorem State.finishOk_linkLog (s : State) : s.finishOk.linkLog = s.linkLog := rfl
@[simp] theorem State.finishOk_linkAcks (s : State) : s.finishOk.linkAcks = s.linkAcks := rfl
@[simp] theorem State.finishOk_linkRx (s : State) : s.finishOk.linkRx = s.linkRx := rfl
@[simp] theorem State.finishOk_linkQueue (s : State) : s.finishOk.linkQueue = s.linkQueue := rfl
@[simp] theorem State.finishOk_draws (s : State) : s.finishOk.draws = s.draws := rfl
@[simp] theorem State.finishOk_schedule (s : State) : s.finishOk.schedule = s.schedule := rfl
@[simp] theorem State.finishOk_turn (s : State) : s.finishOk.turn = s.turn := rfl

/-! ### `State.setSeq` -/

@[simp] theorem State.setSeq_status (s : State) (q : SeqState) : (s.setSeq q).status =
    { s.status with seqState := q } := rfl
@[simp] theorem State.setSeq_cfgDim (s : State) (q : SeqState) : (s.setSeq q).cfgDim = s.cfgDim := rfl
@[simp] theorem State.setSeq_cfgDemosaic (s : State) (q : SeqState) : (s.setSeq q).cfgDemosaic = s.cfgDemosaic := rfl
@[simp] theorem State.setSeq_cfgAcc (s : State) (q : SeqState) : (s.setSeq q).cfgAcc = s.cfgAcc := rfl
@[simp] theorem State.setSeq_accExpected (s : State) (q : SeqState) : (s.setSeq q).accExpected = s.accExpected := rfl
@[simp] theorem State.setSeq_accCount (s : State) (q : SeqState) : (s.setSeq q).accCount = s.accCount := rfl
@[simp] theorem State.setSeq_accAttempts (s : State) (q : SeqState) : (s.setSeq q).accAttempts = s.accAttempts := rfl
@[simp] theorem State.setSeq_frameLen (s : State) (q : SeqState) : (s.setSeq q).frameLen = s.frameLen := rfl
@[simp] theorem State.setSeq_hdr (s : State) (q : SeqState) : (s.setSeq q).hdr = s.hdr := rfl
@[simp] theorem State.setSeq_req (s : State) (q : SeqState) : (s.setSeq q).req = s.req := rfl
@[simp] theorem State.setSeq_errInfo0 (s : State) (q : SeqState) : (s.setSeq q).errInfo0 = s.errInfo0 := rfl
@[simp] theorem State.setSeq_errInfo1 (s : State) (q : SeqState) : (s.setSeq q).errInfo1 = s.errInfo1 := rfl
@[simp] theorem State.setSeq_outDim (s : State) (q : SeqState) : (s.setSeq q).outDim = s.outDim := rfl
@[simp] theorem State.setSeq_mosaic (s : State) (q : SeqState) : (s.setSeq q).mosaic = s.mosaic := rfl
@[simp] theorem State.setSeq_rgb (s : State) (q : SeqState) : (s.setSeq q).rgb = s.rgb := rfl
@[simp] theorem State.setSeq_frame (s : State) (q : SeqState) : (s.setSeq q).frame = s.frame := rfl
@[simp] theorem State.setSeq_curOp (s : State) (q : SeqState) : (s.setSeq q).curOp = s.curOp := rfl
@[simp] theorem State.setSeq_capPhase (s : State) (q : SeqState) : (s.setSeq q).capPhase = s.capPhase := rfl
@[simp] theorem State.setSeq_openedHere (s : State) (q : SeqState) : (s.setSeq q).openedHere = s.openedHere := rfl
@[simp] theorem State.setSeq_accMax (s : State) (q : SeqState) : (s.setSeq q).accMax = s.accMax := rfl
@[simp] theorem State.setSeq_accHdrPending (s : State) (q : SeqState) : (s.setSeq q).accHdrPending =
    s.accHdrPending := rfl
@[simp] theorem State.setSeq_accStarted (s : State) (q : SeqState) : (s.setSeq q).accStarted = s.accStarted := rfl
@[simp] theorem State.setSeq_hostReply (s : State) (q : SeqState) : (s.setSeq q).hostReply = s.hostReply := rfl
@[simp] theorem State.setSeq_encoded (s : State) (q : SeqState) : (s.setSeq q).encoded = s.encoded := rfl
@[simp] theorem State.setSeq_linkLog (s : State) (q : SeqState) : (s.setSeq q).linkLog = s.linkLog := rfl
@[simp] theorem State.setSeq_linkAcks (s : State) (q : SeqState) : (s.setSeq q).linkAcks = s.linkAcks := rfl
@[simp] theorem State.setSeq_linkRx (s : State) (q : SeqState) : (s.setSeq q).linkRx = s.linkRx := rfl
@[simp] theorem State.setSeq_linkQueue (s : State) (q : SeqState) : (s.setSeq q).linkQueue = s.linkQueue := rfl
@[simp] theorem State.setSeq_draws (s : State) (q : SeqState) : (s.setSeq q).draws = s.draws := rfl
@[simp] theorem State.setSeq_schedule (s : State) (q : SeqState) : (s.setSeq q).schedule = s.schedule := rfl
@[simp] theorem State.setSeq_turn (s : State) (q : SeqState) : (s.setSeq q).turn = s.turn := rfl

/-! ### `State.setPhase` -/

@[simp] theorem State.setPhase_status (s : State) (p : CapPhase) : (s.setPhase p).status = s.status := rfl
@[simp] theorem State.setPhase_cfgDim (s : State) (p : CapPhase) : (s.setPhase p).cfgDim = s.cfgDim := rfl
@[simp] theorem State.setPhase_cfgDemosaic (s : State) (p : CapPhase) : (s.setPhase p).cfgDemosaic =
    s.cfgDemosaic := rfl
@[simp] theorem State.setPhase_cfgAcc (s : State) (p : CapPhase) : (s.setPhase p).cfgAcc = s.cfgAcc := rfl
@[simp] theorem State.setPhase_accExpected (s : State) (p : CapPhase) : (s.setPhase p).accExpected =
    s.accExpected := rfl
@[simp] theorem State.setPhase_accCount (s : State) (p : CapPhase) : (s.setPhase p).accCount = s.accCount := rfl
@[simp] theorem State.setPhase_accAttempts (s : State) (p : CapPhase) : (s.setPhase p).accAttempts =
    s.accAttempts := rfl
@[simp] theorem State.setPhase_frameLen (s : State) (p : CapPhase) : (s.setPhase p).frameLen = s.frameLen := rfl
@[simp] theorem State.setPhase_hdr (s : State) (p : CapPhase) : (s.setPhase p).hdr = s.hdr := rfl
@[simp] theorem State.setPhase_req (s : State) (p : CapPhase) : (s.setPhase p).req = s.req := rfl
@[simp] theorem State.setPhase_errInfo0 (s : State) (p : CapPhase) : (s.setPhase p).errInfo0 = s.errInfo0 := rfl
@[simp] theorem State.setPhase_errInfo1 (s : State) (p : CapPhase) : (s.setPhase p).errInfo1 = s.errInfo1 := rfl
@[simp] theorem State.setPhase_outDim (s : State) (p : CapPhase) : (s.setPhase p).outDim = s.outDim := rfl
@[simp] theorem State.setPhase_mosaic (s : State) (p : CapPhase) : (s.setPhase p).mosaic = s.mosaic := rfl
@[simp] theorem State.setPhase_rgb (s : State) (p : CapPhase) : (s.setPhase p).rgb = s.rgb := rfl
@[simp] theorem State.setPhase_frame (s : State) (p : CapPhase) : (s.setPhase p).frame = s.frame := rfl
@[simp] theorem State.setPhase_curOp (s : State) (p : CapPhase) : (s.setPhase p).curOp = s.curOp := rfl
@[simp] theorem State.setPhase_capPhase (s : State) (p : CapPhase) : (s.setPhase p).capPhase = p := rfl
@[simp] theorem State.setPhase_openedHere (s : State) (p : CapPhase) : (s.setPhase p).openedHere = s.openedHere := rfl
@[simp] theorem State.setPhase_accMax (s : State) (p : CapPhase) : (s.setPhase p).accMax = s.accMax := rfl
@[simp] theorem State.setPhase_accHdrPending (s : State) (p : CapPhase) : (s.setPhase p).accHdrPending =
    s.accHdrPending := rfl
@[simp] theorem State.setPhase_accStarted (s : State) (p : CapPhase) : (s.setPhase p).accStarted = s.accStarted := rfl
@[simp] theorem State.setPhase_hostReply (s : State) (p : CapPhase) : (s.setPhase p).hostReply = s.hostReply := rfl
@[simp] theorem State.setPhase_encoded (s : State) (p : CapPhase) : (s.setPhase p).encoded = s.encoded := rfl
@[simp] theorem State.setPhase_linkLog (s : State) (p : CapPhase) : (s.setPhase p).linkLog = s.linkLog := rfl
@[simp] theorem State.setPhase_linkAcks (s : State) (p : CapPhase) : (s.setPhase p).linkAcks = s.linkAcks := rfl
@[simp] theorem State.setPhase_linkRx (s : State) (p : CapPhase) : (s.setPhase p).linkRx = s.linkRx := rfl
@[simp] theorem State.setPhase_linkQueue (s : State) (p : CapPhase) : (s.setPhase p).linkQueue = s.linkQueue := rfl
@[simp] theorem State.setPhase_draws (s : State) (p : CapPhase) : (s.setPhase p).draws = s.draws := rfl
@[simp] theorem State.setPhase_schedule (s : State) (p : CapPhase) : (s.setPhase p).schedule = s.schedule := rfl
@[simp] theorem State.setPhase_turn (s : State) (p : CapPhase) : (s.setPhase p).turn = s.turn := rfl

/-! ### `State.issueLink` -/

@[simp] theorem State.issueLink_status (s : State) (op : LinkOp) : (s.issueLink op).status = s.status := rfl
@[simp] theorem State.issueLink_cfgDim (s : State) (op : LinkOp) : (s.issueLink op).cfgDim = s.cfgDim := rfl
@[simp] theorem State.issueLink_cfgDemosaic (s : State) (op : LinkOp) : (s.issueLink op).cfgDemosaic =
    s.cfgDemosaic := rfl
@[simp] theorem State.issueLink_cfgAcc (s : State) (op : LinkOp) : (s.issueLink op).cfgAcc = s.cfgAcc := rfl
@[simp] theorem State.issueLink_accExpected (s : State) (op : LinkOp) : (s.issueLink op).accExpected =
    s.accExpected := rfl
@[simp] theorem State.issueLink_accCount (s : State) (op : LinkOp) : (s.issueLink op).accCount = s.accCount := rfl
@[simp] theorem State.issueLink_accAttempts (s : State) (op : LinkOp) : (s.issueLink op).accAttempts =
    s.accAttempts := rfl
@[simp] theorem State.issueLink_frameLen (s : State) (op : LinkOp) : (s.issueLink op).frameLen = s.frameLen := rfl
@[simp] theorem State.issueLink_hdr (s : State) (op : LinkOp) : (s.issueLink op).hdr = s.hdr := rfl
@[simp] theorem State.issueLink_req (s : State) (op : LinkOp) : (s.issueLink op).req = s.req := rfl
@[simp] theorem State.issueLink_errInfo0 (s : State) (op : LinkOp) : (s.issueLink op).errInfo0 = s.errInfo0 := rfl
@[simp] theorem State.issueLink_errInfo1 (s : State) (op : LinkOp) : (s.issueLink op).errInfo1 = s.errInfo1 := rfl
@[simp] theorem State.issueLink_outDim (s : State) (op : LinkOp) : (s.issueLink op).outDim = s.outDim := rfl
@[simp] theorem State.issueLink_mosaic (s : State) (op : LinkOp) : (s.issueLink op).mosaic = s.mosaic := rfl
@[simp] theorem State.issueLink_rgb (s : State) (op : LinkOp) : (s.issueLink op).rgb = s.rgb := rfl
@[simp] theorem State.issueLink_frame (s : State) (op : LinkOp) : (s.issueLink op).frame = s.frame := rfl
@[simp] theorem State.issueLink_curOp (s : State) (op : LinkOp) : (s.issueLink op).curOp = s.curOp := rfl
@[simp] theorem State.issueLink_capPhase (s : State) (op : LinkOp) : (s.issueLink op).capPhase = s.capPhase := rfl
@[simp] theorem State.issueLink_openedHere (s : State) (op : LinkOp) : (s.issueLink op).openedHere =
    s.openedHere := rfl
@[simp] theorem State.issueLink_accMax (s : State) (op : LinkOp) : (s.issueLink op).accMax = s.accMax := rfl
@[simp] theorem State.issueLink_accHdrPending (s : State) (op : LinkOp) : (s.issueLink op).accHdrPending =
    s.accHdrPending := rfl
@[simp] theorem State.issueLink_accStarted (s : State) (op : LinkOp) : (s.issueLink op).accStarted =
    s.accStarted := rfl
@[simp] theorem State.issueLink_hostReply (s : State) (op : LinkOp) : (s.issueLink op).hostReply = s.hostReply := rfl
@[simp] theorem State.issueLink_encoded (s : State) (op : LinkOp) : (s.issueLink op).encoded = s.encoded := rfl
@[simp] theorem State.issueLink_linkLog (s : State) (op : LinkOp) : (s.issueLink op).linkLog =
    s.linkLog ++ [op] := rfl
@[simp] theorem State.issueLink_linkAcks (s : State) (op : LinkOp) : (s.issueLink op).linkAcks = s.linkAcks := rfl
@[simp] theorem State.issueLink_linkRx (s : State) (op : LinkOp) : (s.issueLink op).linkRx = s.linkRx := rfl
@[simp] theorem State.issueLink_linkQueue (s : State) (op : LinkOp) : (s.issueLink op).linkQueue = s.linkQueue := rfl
@[simp] theorem State.issueLink_draws (s : State) (op : LinkOp) : (s.issueLink op).draws = s.draws := rfl
@[simp] theorem State.issueLink_schedule (s : State) (op : LinkOp) : (s.issueLink op).schedule = s.schedule := rfl
@[simp] theorem State.issueLink_turn (s : State) (op : LinkOp) : (s.issueLink op).turn = s.turn := rfl

/-! ### `State.closeLink` -/

@[simp] theorem State.closeLink_status (s : State) : s.closeLink.status = { s.status with linkOpen := false } := rfl
@[simp] theorem State.closeLink_cfgDim (s : State) : s.closeLink.cfgDim = s.cfgDim := rfl
@[simp] theorem State.closeLink_cfgDemosaic (s : State) : s.closeLink.cfgDemosaic = s.cfgDemosaic := rfl
@[simp] theorem State.closeLink_cfgAcc (s : State) : s.closeLink.cfgAcc = s.cfgAcc := rfl
@[simp] theorem State.closeLink_accExpected (s : State) : s.closeLink.accExpected = s.accExpected := rfl
@[simp] theorem State.closeLink_accCount (s : State) : s.closeLink.accCount = s.accCount := rfl
@[simp] theorem State.closeLink_accAttempts (s : State) : s.closeLink.accAttempts = s.accAttempts := rfl
@[simp] theorem State.closeLink_frameLen (s : State) : s.closeLink.frameLen = s.frameLen := rfl
@[simp] theorem State.closeLink_hdr (s : State) : s.closeLink.hdr = s.hdr := rfl
@[simp] theorem State.closeLink_req (s : State) : s.closeLink.req = s.req := rfl
@[simp] theorem State.closeLink_errInfo0 (s : State) : s.closeLink.errInfo0 = s.errInfo0 := rfl
@[simp] theorem State.closeLink_errInfo1 (s : State) : s.closeLink.errInfo1 = s.errInfo1 := rfl
@[simp] theorem State.closeLink_outDim (s : State) : s.closeLink.outDim = s.outDim := rfl
@[simp] theorem State.closeLink_mosaic (s : State) : s.closeLink.mosaic = s.mosaic := rfl
@[simp] theorem State.closeLink_rgb (s : State) : s.closeLink.rgb = s.rgb := rfl
@[simp] theorem State.closeLink_frame (s : State) : s.closeLink.frame = s.frame := rfl
@[simp] theorem State.closeLink_curOp (s : State) : s.closeLink.curOp = s.curOp := rfl
@[simp] theorem State.closeLink_capPhase (s : State) : s.closeLink.capPhase = s.capPhase := rfl
@[simp] theorem State.closeLink_openedHere (s : State) : s.closeLink.openedHere = s.openedHere := rfl
@[simp] theorem State.closeLink_accMax (s : State) : s.closeLink.accMax = s.accMax := rfl
@[simp] theorem State.closeLink_accHdrPending (s : State) : s.closeLink.accHdrPending = s.accHdrPending := rfl
@[simp] theorem State.closeLink_accStarted (s : State) : s.closeLink.accStarted = s.accStarted := rfl
@[simp] theorem State.closeLink_hostReply (s : State) : s.closeLink.hostReply = s.hostReply := rfl
@[simp] theorem State.closeLink_encoded (s : State) : s.closeLink.encoded = s.encoded := rfl
@[simp] theorem State.closeLink_linkLog (s : State) : s.closeLink.linkLog = s.linkLog ++ [.linkClose] := rfl
@[simp] theorem State.closeLink_linkAcks (s : State) : s.closeLink.linkAcks = s.linkAcks := rfl
@[simp] theorem State.closeLink_linkRx (s : State) : s.closeLink.linkRx = s.linkRx := rfl
@[simp] theorem State.closeLink_linkQueue (s : State) : s.closeLink.linkQueue = s.linkQueue := rfl
@[simp] theorem State.closeLink_draws (s : State) : s.closeLink.draws = s.draws := rfl
@[simp] theorem State.closeLink_schedule (s : State) : s.closeLink.schedule = s.schedule := rfl
@[simp] theorem State.closeLink_turn (s : State) : s.closeLink.turn = s.turn := rfl

/-! ### `State.bookkeep` -/

@[simp] theorem State.bookkeep_status (s : State) (v : Word) : (s.bookkeep v).status =
    { s.status with lastOp := v.extractLsb' 0 8, err := .none, ignored := false, seqState := .idle } := rfl
@[simp] theorem State.bookkeep_cfgDim (s : State) (v : Word) : (s.bookkeep v).cfgDim = s.cfgDim := rfl
@[simp] theorem State.bookkeep_cfgDemosaic (s : State) (v : Word) : (s.bookkeep v).cfgDemosaic = s.cfgDemosaic := rfl
@[simp] theorem State.bookkeep_cfgAcc (s : State) (v : Word) : (s.bookkeep v).cfgAcc = s.cfgAcc := rfl
@[simp] theorem State.bookkeep_accExpected (s : State) (v : Word) : (s.bookkeep v).accExpected = s.accExpected := rfl
@[simp] theorem State.bookkeep_accCount (s : State) (v : Word) : (s.bookkeep v).accCount = s.accCount := rfl
@[simp] theorem State.bookkeep_accAttempts (s : State) (v : Word) : (s.bookkeep v).accAttempts = s.accAttempts := rfl
@[simp] theorem State.bookkeep_frameLen (s : State) (v : Word) : (s.bookkeep v).frameLen = s.frameLen := rfl
@[simp] theorem State.bookkeep_hdr (s : State) (v : Word) : (s.bookkeep v).hdr = s.hdr := rfl
@[simp] theorem State.bookkeep_req (s : State) (v : Word) : (s.bookkeep v).req = s.req := rfl
@[simp] theorem State.bookkeep_errInfo0 (s : State) (v : Word) : (s.bookkeep v).errInfo0 = 0 := rfl
@[simp] theorem State.bookkeep_errInfo1 (s : State) (v : Word) : (s.bookkeep v).errInfo1 = 0 := rfl
@[simp] theorem State.bookkeep_outDim (s : State) (v : Word) : (s.bookkeep v).outDim = s.outDim := rfl
@[simp] theorem State.bookkeep_mosaic (s : State) (v : Word) : (s.bookkeep v).mosaic = s.mosaic := rfl
@[simp] theorem State.bookkeep_rgb (s : State) (v : Word) : (s.bookkeep v).rgb = s.rgb := rfl
@[simp] theorem State.bookkeep_frame (s : State) (v : Word) : (s.bookkeep v).frame = s.frame := rfl
@[simp] theorem State.bookkeep_curOp (s : State) (v : Word) : (s.bookkeep v).curOp = s.curOp := rfl
@[simp] theorem State.bookkeep_capPhase (s : State) (v : Word) : (s.bookkeep v).capPhase = s.capPhase := rfl
@[simp] theorem State.bookkeep_openedHere (s : State) (v : Word) : (s.bookkeep v).openedHere = s.openedHere := rfl
@[simp] theorem State.bookkeep_accMax (s : State) (v : Word) : (s.bookkeep v).accMax = s.accMax := rfl
@[simp] theorem State.bookkeep_accHdrPending (s : State) (v : Word) : (s.bookkeep v).accHdrPending =
    s.accHdrPending := rfl
@[simp] theorem State.bookkeep_accStarted (s : State) (v : Word) : (s.bookkeep v).accStarted = s.accStarted := rfl
@[simp] theorem State.bookkeep_hostReply (s : State) (v : Word) : (s.bookkeep v).hostReply = s.hostReply := rfl
@[simp] theorem State.bookkeep_encoded (s : State) (v : Word) : (s.bookkeep v).encoded = s.encoded := rfl
@[simp] theorem State.bookkeep_linkLog (s : State) (v : Word) : (s.bookkeep v).linkLog = s.linkLog := rfl
@[simp] theorem State.bookkeep_linkAcks (s : State) (v : Word) : (s.bookkeep v).linkAcks = s.linkAcks := rfl
@[simp] theorem State.bookkeep_linkRx (s : State) (v : Word) : (s.bookkeep v).linkRx = s.linkRx := rfl
@[simp] theorem State.bookkeep_linkQueue (s : State) (v : Word) : (s.bookkeep v).linkQueue = s.linkQueue := rfl
@[simp] theorem State.bookkeep_draws (s : State) (v : Word) : (s.bookkeep v).draws = s.draws := rfl
@[simp] theorem State.bookkeep_schedule (s : State) (v : Word) : (s.bookkeep v).schedule = s.schedule := rfl
@[simp] theorem State.bookkeep_turn (s : State) (v : Word) : (s.bookkeep v).turn = s.turn := rfl

/-! ### `State.dropWrite` -/

@[simp] theorem State.dropWrite_status (s : State) : s.dropWrite.status = { s.status with ignored := true } := rfl
@[simp] theorem State.dropWrite_cfgDim (s : State) : s.dropWrite.cfgDim = s.cfgDim := rfl
@[simp] theorem State.dropWrite_cfgDemosaic (s : State) : s.dropWrite.cfgDemosaic = s.cfgDemosaic := rfl
@[simp] theorem State.dropWrite_cfgAcc (s : State) : s.dropWrite.cfgAcc = s.cfgAcc := rfl
@[simp] theorem State.dropWrite_accExpected (s : State) : s.dropWrite.accExpected = s.accExpected := rfl
@[simp] theorem State.dropWrite_accCount (s : State) : s.dropWrite.accCount = s.accCount := rfl
@[simp] theorem State.dropWrite_accAttempts (s : State) : s.dropWrite.accAttempts = s.accAttempts := rfl
@[simp] theorem State.dropWrite_frameLen (s : State) : s.dropWrite.frameLen = s.frameLen := rfl
@[simp] theorem State.dropWrite_hdr (s : State) : s.dropWrite.hdr = s.hdr := rfl
@[simp] theorem State.dropWrite_req (s : State) : s.dropWrite.req = s.req := rfl
@[simp] theorem State.dropWrite_errInfo0 (s : State) : s.dropWrite.errInfo0 = s.errInfo0 := rfl
@[simp] theorem State.dropWrite_errInfo1 (s : State) : s.dropWrite.errInfo1 = s.errInfo1 := rfl
@[simp] theorem State.dropWrite_outDim (s : State) : s.dropWrite.outDim = s.outDim := rfl
@[simp] theorem State.dropWrite_mosaic (s : State) : s.dropWrite.mosaic = s.mosaic := rfl
@[simp] theorem State.dropWrite_rgb (s : State) : s.dropWrite.rgb = s.rgb := rfl
@[simp] theorem State.dropWrite_frame (s : State) : s.dropWrite.frame = s.frame := rfl
@[simp] theorem State.dropWrite_curOp (s : State) : s.dropWrite.curOp = s.curOp := rfl
@[simp] theorem State.dropWrite_capPhase (s : State) : s.dropWrite.capPhase = s.capPhase := rfl
@[simp] theorem State.dropWrite_openedHere (s : State) : s.dropWrite.openedHere = s.openedHere := rfl
@[simp] theorem State.dropWrite_accMax (s : State) : s.dropWrite.accMax = s.accMax := rfl
@[simp] theorem State.dropWrite_accHdrPending (s : State) : s.dropWrite.accHdrPending = s.accHdrPending := rfl
@[simp] theorem State.dropWrite_accStarted (s : State) : s.dropWrite.accStarted = s.accStarted := rfl
@[simp] theorem State.dropWrite_hostReply (s : State) : s.dropWrite.hostReply = s.hostReply := rfl
@[simp] theorem State.dropWrite_encoded (s : State) : s.dropWrite.encoded = s.encoded := rfl
@[simp] theorem State.dropWrite_linkLog (s : State) : s.dropWrite.linkLog = s.linkLog := rfl
@[simp] theorem State.dropWrite_linkAcks (s : State) : s.dropWrite.linkAcks = s.linkAcks := rfl
@[simp] theorem State.dropWrite_linkRx (s : State) : s.dropWrite.linkRx = s.linkRx := rfl
@[simp] theorem State.dropWrite_linkQueue (s : State) : s.dropWrite.linkQueue = s.linkQueue := rfl
@[simp] theorem State.dropWrite_draws (s : State) : s.dropWrite.draws = s.draws := rfl
@[simp] theorem State.dropWrite_schedule (s : State) : s.dropWrite.schedule = s.schedule := rfl
@[simp] theorem State.dropWrite_turn (s : State) : s.dropWrite.turn = s.turn := rfl

/-! ### `State.accept` -/

@[simp] theorem State.accept_status (s : State) (v : Word) : (s.accept v).status =
    { s.status with busy := true, done := false } := rfl
@[simp] theorem State.accept_cfgDim (s : State) (v : Word) : (s.accept v).cfgDim = s.cfgDim := rfl
@[simp] theorem State.accept_cfgDemosaic (s : State) (v : Word) : (s.accept v).cfgDemosaic = s.cfgDemosaic := rfl
@[simp] theorem State.accept_cfgAcc (s : State) (v : Word) : (s.accept v).cfgAcc = s.cfgAcc := rfl
@[simp] theorem State.accept_accExpected (s : State) (v : Word) : (s.accept v).accExpected = s.accExpected := rfl
@[simp] theorem State.accept_accCount (s : State) (v : Word) : (s.accept v).accCount = s.accCount := rfl
@[simp] theorem State.accept_accAttempts (s : State) (v : Word) : (s.accept v).accAttempts = s.accAttempts := rfl
@[simp] theorem State.accept_frameLen (s : State) (v : Word) : (s.accept v).frameLen = s.frameLen := rfl
@[simp] theorem State.accept_hdr (s : State) (v : Word) : (s.accept v).hdr = s.hdr := rfl
@[simp] theorem State.accept_req (s : State) (v : Word) : (s.accept v).req = s.req := rfl
@[simp] theorem State.accept_errInfo0 (s : State) (v : Word) : (s.accept v).errInfo0 = s.errInfo0 := rfl
@[simp] theorem State.accept_errInfo1 (s : State) (v : Word) : (s.accept v).errInfo1 = s.errInfo1 := rfl
@[simp] theorem State.accept_outDim (s : State) (v : Word) : (s.accept v).outDim = s.outDim := rfl
@[simp] theorem State.accept_mosaic (s : State) (v : Word) : (s.accept v).mosaic = s.mosaic := rfl
@[simp] theorem State.accept_rgb (s : State) (v : Word) : (s.accept v).rgb = s.rgb := rfl
@[simp] theorem State.accept_frame (s : State) (v : Word) : (s.accept v).frame = s.frame := rfl
@[simp] theorem State.accept_curOp (s : State) (v : Word) : (s.accept v).curOp = v.extractLsb' 0 8 := rfl
@[simp] theorem State.accept_capPhase (s : State) (v : Word) : (s.accept v).capPhase = s.capPhase := rfl
@[simp] theorem State.accept_openedHere (s : State) (v : Word) : (s.accept v).openedHere = s.openedHere := rfl
@[simp] theorem State.accept_accMax (s : State) (v : Word) : (s.accept v).accMax = s.accMax := rfl
@[simp] theorem State.accept_accHdrPending (s : State) (v : Word) : (s.accept v).accHdrPending =
    s.accHdrPending := rfl
@[simp] theorem State.accept_accStarted (s : State) (v : Word) : (s.accept v).accStarted = false := rfl
@[simp] theorem State.accept_hostReply (s : State) (v : Word) : (s.accept v).hostReply = s.hostReply := rfl
@[simp] theorem State.accept_encoded (s : State) (v : Word) : (s.accept v).encoded = s.encoded := rfl
@[simp] theorem State.accept_linkLog (s : State) (v : Word) : (s.accept v).linkLog = s.linkLog := rfl
@[simp] theorem State.accept_linkAcks (s : State) (v : Word) : (s.accept v).linkAcks = s.linkAcks := rfl
@[simp] theorem State.accept_linkRx (s : State) (v : Word) : (s.accept v).linkRx = s.linkRx := rfl
@[simp] theorem State.accept_linkQueue (s : State) (v : Word) : (s.accept v).linkQueue = s.linkQueue := rfl
@[simp] theorem State.accept_draws (s : State) (v : Word) : (s.accept v).draws = s.draws := rfl
@[simp] theorem State.accept_schedule (s : State) (v : Word) : (s.accept v).schedule = s.schedule := rfl
@[simp] theorem State.accept_turn (s : State) (v : Word) : (s.accept v).turn = s.turn := rfl

/-! ### `State.startCapture` -/

@[simp] theorem State.startCapture_status (s : State) : s.startCapture.status = s.status := rfl
@[simp] theorem State.startCapture_cfgDim (s : State) : s.startCapture.cfgDim = s.cfgDim := rfl
@[simp] theorem State.startCapture_cfgDemosaic (s : State) : s.startCapture.cfgDemosaic = s.cfgDemosaic := rfl
@[simp] theorem State.startCapture_cfgAcc (s : State) : s.startCapture.cfgAcc = s.cfgAcc := rfl
@[simp] theorem State.startCapture_accExpected (s : State) : s.startCapture.accExpected = s.accExpected := rfl
@[simp] theorem State.startCapture_accCount (s : State) : s.startCapture.accCount = s.accCount := rfl
@[simp] theorem State.startCapture_accAttempts (s : State) : s.startCapture.accAttempts = s.accAttempts := rfl
@[simp] theorem State.startCapture_frameLen (s : State) : s.startCapture.frameLen = s.frameLen := rfl
@[simp] theorem State.startCapture_hdr (s : State) : s.startCapture.hdr = s.hdr := rfl
@[simp] theorem State.startCapture_req (s : State) : s.startCapture.req = s.req := rfl
@[simp] theorem State.startCapture_errInfo0 (s : State) : s.startCapture.errInfo0 = s.errInfo0 := rfl
@[simp] theorem State.startCapture_errInfo1 (s : State) : s.startCapture.errInfo1 = s.errInfo1 := rfl
@[simp] theorem State.startCapture_outDim (s : State) : s.startCapture.outDim = s.outDim := rfl
@[simp] theorem State.startCapture_mosaic (s : State) : s.startCapture.mosaic = s.mosaic := rfl
@[simp] theorem State.startCapture_rgb (s : State) : s.startCapture.rgb = s.rgb := rfl
@[simp] theorem State.startCapture_frame (s : State) : s.startCapture.frame = s.frame := rfl
@[simp] theorem State.startCapture_curOp (s : State) : s.startCapture.curOp = s.curOp := rfl
@[simp] theorem State.startCapture_capPhase (s : State) : s.startCapture.capPhase = .check := rfl
@[simp] theorem State.startCapture_openedHere (s : State) : s.startCapture.openedHere = false := rfl
@[simp] theorem State.startCapture_accMax (s : State) : s.startCapture.accMax = s.accMax := rfl
@[simp] theorem State.startCapture_accHdrPending (s : State) : s.startCapture.accHdrPending = false := rfl
@[simp] theorem State.startCapture_accStarted (s : State) : s.startCapture.accStarted = s.accStarted := rfl
@[simp] theorem State.startCapture_hostReply (s : State) : s.startCapture.hostReply = s.hostReply := rfl
@[simp] theorem State.startCapture_encoded (s : State) : s.startCapture.encoded = s.encoded := rfl
@[simp] theorem State.startCapture_linkLog (s : State) : s.startCapture.linkLog = s.linkLog := rfl
@[simp] theorem State.startCapture_linkAcks (s : State) : s.startCapture.linkAcks = s.linkAcks := rfl
@[simp] theorem State.startCapture_linkRx (s : State) : s.startCapture.linkRx = s.linkRx := rfl
@[simp] theorem State.startCapture_linkQueue (s : State) : s.startCapture.linkQueue = s.linkQueue := rfl
@[simp] theorem State.startCapture_draws (s : State) : s.startCapture.draws = s.draws := rfl
@[simp] theorem State.startCapture_schedule (s : State) : s.startCapture.schedule = s.schedule := rfl
@[simp] theorem State.startCapture_turn (s : State) : s.startCapture.turn = s.turn := rfl

/-! ### `State.runEncoder` -/

@[simp] theorem State.runEncoder_status (s : State) (opc param : Int) : (s.runEncoder opc param).status =
    s.status := rfl
@[simp] theorem State.runEncoder_cfgDim (s : State) (opc param : Int) : (s.runEncoder opc param).cfgDim =
    s.cfgDim := rfl
@[simp] theorem State.runEncoder_cfgDemosaic (s : State) (opc param : Int) : (s.runEncoder opc param).cfgDemosaic =
    s.cfgDemosaic := rfl
@[simp] theorem State.runEncoder_cfgAcc (s : State) (opc param : Int) : (s.runEncoder opc param).cfgAcc =
    s.cfgAcc := rfl
@[simp] theorem State.runEncoder_accExpected (s : State) (opc param : Int) : (s.runEncoder opc param).accExpected =
    s.accExpected := rfl
@[simp] theorem State.runEncoder_accCount (s : State) (opc param : Int) : (s.runEncoder opc param).accCount =
    s.accCount := rfl
@[simp] theorem State.runEncoder_accAttempts (s : State) (opc param : Int) : (s.runEncoder opc param).accAttempts =
    s.accAttempts := rfl
@[simp] theorem State.runEncoder_frameLen (s : State) (opc param : Int) : (s.runEncoder opc param).frameLen =
    s.frameLen := rfl
@[simp] theorem State.runEncoder_hdr (s : State) (opc param : Int) : (s.runEncoder opc param).hdr = s.hdr := rfl
@[simp] theorem State.runEncoder_req (s : State) (opc param : Int) : (s.runEncoder opc param).req = s.req := rfl
@[simp] theorem State.runEncoder_errInfo0 (s : State) (opc param : Int) : (s.runEncoder opc param).errInfo0 =
    s.errInfo0 := rfl
@[simp] theorem State.runEncoder_errInfo1 (s : State) (opc param : Int) : (s.runEncoder opc param).errInfo1 =
    s.errInfo1 := rfl
@[simp] theorem State.runEncoder_outDim (s : State) (opc param : Int) : (s.runEncoder opc param).outDim =
    s.outDim := rfl
@[simp] theorem State.runEncoder_mosaic (s : State) (opc param : Int) : (s.runEncoder opc param).mosaic =
    s.mosaic := rfl
@[simp] theorem State.runEncoder_rgb (s : State) (opc param : Int) : (s.runEncoder opc param).rgb = s.rgb := rfl
@[simp] theorem State.runEncoder_frame (s : State) (opc param : Int) : (s.runEncoder opc param).frame = s.frame := rfl
@[simp] theorem State.runEncoder_curOp (s : State) (opc param : Int) : (s.runEncoder opc param).curOp = s.curOp := rfl
@[simp] theorem State.runEncoder_capPhase (s : State) (opc param : Int) : (s.runEncoder opc param).capPhase =
    s.capPhase := rfl
@[simp] theorem State.runEncoder_openedHere (s : State) (opc param : Int) : (s.runEncoder opc param).openedHere =
    s.openedHere := rfl
@[simp] theorem State.runEncoder_accMax (s : State) (opc param : Int) : (s.runEncoder opc param).accMax =
    s.accMax := rfl
@[simp] theorem State.runEncoder_accHdrPending (s : State) (opc param : Int) : (s.runEncoder opc param).accHdrPending =
    s.accHdrPending := rfl
@[simp] theorem State.runEncoder_accStarted (s : State) (opc param : Int) : (s.runEncoder opc param).accStarted =
    s.accStarted := rfl
@[simp] theorem State.runEncoder_hostReply (s : State) (opc param : Int) : (s.runEncoder opc param).hostReply =
    s.hostReply := rfl
@[simp] theorem State.runEncoder_encoded (s : State) (opc param : Int) : (s.runEncoder opc param).encoded =
    encodeRequest opc param := rfl
@[simp] theorem State.runEncoder_linkLog (s : State) (opc param : Int) : (s.runEncoder opc param).linkLog =
    s.linkLog := rfl
@[simp] theorem State.runEncoder_linkAcks (s : State) (opc param : Int) : (s.runEncoder opc param).linkAcks =
    s.linkAcks := rfl
@[simp] theorem State.runEncoder_linkRx (s : State) (opc param : Int) : (s.runEncoder opc param).linkRx =
    s.linkRx := rfl
@[simp] theorem State.runEncoder_linkQueue (s : State) (opc param : Int) : (s.runEncoder opc param).linkQueue =
    s.linkQueue := rfl
@[simp] theorem State.runEncoder_draws (s : State) (opc param : Int) : (s.runEncoder opc param).draws = s.draws := rfl
@[simp] theorem State.runEncoder_schedule (s : State) (opc param : Int) : (s.runEncoder opc param).schedule =
    s.schedule := rfl
@[simp] theorem State.runEncoder_turn (s : State) (opc param : Int) : (s.runEncoder opc param).turn = s.turn := rfl

/-! ### `State.lineUp` -/

@[simp] theorem State.lineUp_status (s : State) (bytes : List Byte) : (s.lineUp bytes).status = s.status := rfl
@[simp] theorem State.lineUp_cfgDim (s : State) (bytes : List Byte) : (s.lineUp bytes).cfgDim = s.cfgDim := rfl
@[simp] theorem State.lineUp_cfgDemosaic (s : State) (bytes : List Byte) : (s.lineUp bytes).cfgDemosaic =
    s.cfgDemosaic := rfl
@[simp] theorem State.lineUp_cfgAcc (s : State) (bytes : List Byte) : (s.lineUp bytes).cfgAcc = s.cfgAcc := rfl
@[simp] theorem State.lineUp_accExpected (s : State) (bytes : List Byte) : (s.lineUp bytes).accExpected =
    s.accExpected := rfl
@[simp] theorem State.lineUp_accCount (s : State) (bytes : List Byte) : (s.lineUp bytes).accCount = s.accCount := rfl
@[simp] theorem State.lineUp_accAttempts (s : State) (bytes : List Byte) : (s.lineUp bytes).accAttempts =
    s.accAttempts := rfl
@[simp] theorem State.lineUp_frameLen (s : State) (bytes : List Byte) : (s.lineUp bytes).frameLen = s.frameLen := rfl
@[simp] theorem State.lineUp_hdr (s : State) (bytes : List Byte) : (s.lineUp bytes).hdr = s.hdr := rfl
@[simp] theorem State.lineUp_req (s : State) (bytes : List Byte) : (s.lineUp bytes).req = s.req := rfl
@[simp] theorem State.lineUp_errInfo0 (s : State) (bytes : List Byte) : (s.lineUp bytes).errInfo0 = s.errInfo0 := rfl
@[simp] theorem State.lineUp_errInfo1 (s : State) (bytes : List Byte) : (s.lineUp bytes).errInfo1 = s.errInfo1 := rfl
@[simp] theorem State.lineUp_outDim (s : State) (bytes : List Byte) : (s.lineUp bytes).outDim = s.outDim := rfl
@[simp] theorem State.lineUp_mosaic (s : State) (bytes : List Byte) : (s.lineUp bytes).mosaic = s.mosaic := rfl
@[simp] theorem State.lineUp_rgb (s : State) (bytes : List Byte) : (s.lineUp bytes).rgb = s.rgb := rfl
@[simp] theorem State.lineUp_frame (s : State) (bytes : List Byte) : (s.lineUp bytes).frame = s.frame := rfl
@[simp] theorem State.lineUp_curOp (s : State) (bytes : List Byte) : (s.lineUp bytes).curOp = s.curOp := rfl
@[simp] theorem State.lineUp_capPhase (s : State) (bytes : List Byte) : (s.lineUp bytes).capPhase = s.capPhase := rfl
@[simp] theorem State.lineUp_openedHere (s : State) (bytes : List Byte) : (s.lineUp bytes).openedHere =
    s.openedHere := rfl
@[simp] theorem State.lineUp_accMax (s : State) (bytes : List Byte) : (s.lineUp bytes).accMax = s.accMax := rfl
@[simp] theorem State.lineUp_accHdrPending (s : State) (bytes : List Byte) : (s.lineUp bytes).accHdrPending =
    s.accHdrPending := rfl
@[simp] theorem State.lineUp_accStarted (s : State) (bytes : List Byte) : (s.lineUp bytes).accStarted =
    s.accStarted := rfl
@[simp] theorem State.lineUp_hostReply (s : State) (bytes : List Byte) : (s.lineUp bytes).hostReply =
    s.hostReply := rfl
@[simp] theorem State.lineUp_encoded (s : State) (bytes : List Byte) : (s.lineUp bytes).encoded = s.encoded := rfl
@[simp] theorem State.lineUp_linkLog (s : State) (bytes : List Byte) : (s.lineUp bytes).linkLog = s.linkLog := rfl
@[simp] theorem State.lineUp_linkAcks (s : State) (bytes : List Byte) : (s.lineUp bytes).linkAcks = s.linkAcks := rfl
@[simp] theorem State.lineUp_linkRx (s : State) (bytes : List Byte) : (s.lineUp bytes).linkRx = s.linkRx := rfl
@[simp] theorem State.lineUp_linkQueue (s : State) (bytes : List Byte) : (s.lineUp bytes).linkQueue =
    s.linkQueue ++ bytes := rfl
@[simp] theorem State.lineUp_draws (s : State) (bytes : List Byte) : (s.lineUp bytes).draws = s.draws := rfl
@[simp] theorem State.lineUp_schedule (s : State) (bytes : List Byte) : (s.lineUp bytes).schedule = s.schedule := rfl
@[simp] theorem State.lineUp_turn (s : State) (bytes : List Byte) : (s.lineUp bytes).turn = s.turn := rfl

/-! ### `State.linkFailed` -/

@[simp] theorem State.linkFailed_status (s : State) : s.linkFailed.status = s.status := rfl
@[simp] theorem State.linkFailed_cfgDim (s : State) : s.linkFailed.cfgDim = s.cfgDim := rfl
@[simp] theorem State.linkFailed_cfgDemosaic (s : State) : s.linkFailed.cfgDemosaic = s.cfgDemosaic := rfl
@[simp] theorem State.linkFailed_cfgAcc (s : State) : s.linkFailed.cfgAcc = s.cfgAcc := rfl
@[simp] theorem State.linkFailed_accExpected (s : State) : s.linkFailed.accExpected = s.accExpected := rfl
@[simp] theorem State.linkFailed_accCount (s : State) : s.linkFailed.accCount = s.accCount := rfl
@[simp] theorem State.linkFailed_accAttempts (s : State) : s.linkFailed.accAttempts = s.accAttempts := rfl
@[simp] theorem State.linkFailed_frameLen (s : State) : s.linkFailed.frameLen = s.frameLen := rfl
@[simp] theorem State.linkFailed_hdr (s : State) : s.linkFailed.hdr = s.hdr := rfl
@[simp] theorem State.linkFailed_req (s : State) : s.linkFailed.req = s.req := rfl
@[simp] theorem State.linkFailed_errInfo0 (s : State) : s.linkFailed.errInfo0 = s.errInfo0 := rfl
@[simp] theorem State.linkFailed_errInfo1 (s : State) : s.linkFailed.errInfo1 = s.errInfo1 := rfl
@[simp] theorem State.linkFailed_outDim (s : State) : s.linkFailed.outDim = s.outDim := rfl
@[simp] theorem State.linkFailed_mosaic (s : State) : s.linkFailed.mosaic = s.mosaic := rfl
@[simp] theorem State.linkFailed_rgb (s : State) : s.linkFailed.rgb = s.rgb := rfl
@[simp] theorem State.linkFailed_frame (s : State) : s.linkFailed.frame = s.frame := rfl
@[simp] theorem State.linkFailed_curOp (s : State) : s.linkFailed.curOp = s.curOp := rfl
@[simp] theorem State.linkFailed_capPhase (s : State) : s.linkFailed.capPhase = s.capPhase := rfl
@[simp] theorem State.linkFailed_openedHere (s : State) : s.linkFailed.openedHere = s.openedHere := rfl
@[simp] theorem State.linkFailed_accMax (s : State) : s.linkFailed.accMax = s.accMax := rfl
@[simp] theorem State.linkFailed_accHdrPending (s : State) : s.linkFailed.accHdrPending = s.accHdrPending := rfl
@[simp] theorem State.linkFailed_accStarted (s : State) : s.linkFailed.accStarted = s.accStarted := rfl
@[simp] theorem State.linkFailed_hostReply (s : State) : s.linkFailed.hostReply = s.hostReply := rfl
@[simp] theorem State.linkFailed_encoded (s : State) : s.linkFailed.encoded = s.encoded := rfl
@[simp] theorem State.linkFailed_linkLog (s : State) : s.linkFailed.linkLog = s.linkLog := rfl
@[simp] theorem State.linkFailed_linkAcks (s : State) : s.linkFailed.linkAcks = s.linkAcks := rfl
@[simp] theorem State.linkFailed_linkRx (s : State) : s.linkFailed.linkRx = s.linkRx := rfl
@[simp] theorem State.linkFailed_linkQueue (s : State) : s.linkFailed.linkQueue = Config.linkLeft s.draws := rfl
@[simp] theorem State.linkFailed_draws (s : State) : s.linkFailed.draws = s.draws + 1 := rfl
@[simp] theorem State.linkFailed_schedule (s : State) : s.linkFailed.schedule = s.schedule := rfl
@[simp] theorem State.linkFailed_turn (s : State) : s.linkFailed.turn = s.turn := rfl

/-! ### `State.countRead` -/

@[simp] theorem State.countRead_status (s : State) : s.countRead.status = s.status := rfl
@[simp] theorem State.countRead_cfgDim (s : State) : s.countRead.cfgDim = s.cfgDim := rfl
@[simp] theorem State.countRead_cfgDemosaic (s : State) : s.countRead.cfgDemosaic = s.cfgDemosaic := rfl
@[simp] theorem State.countRead_cfgAcc (s : State) : s.countRead.cfgAcc = s.cfgAcc := rfl
@[simp] theorem State.countRead_accExpected (s : State) : s.countRead.accExpected = s.accExpected := rfl
@[simp] theorem State.countRead_accCount (s : State) : s.countRead.accCount = s.accCount := rfl
@[simp] theorem State.countRead_accAttempts (s : State) : s.countRead.accAttempts = s.accAttempts + 1 := rfl
@[simp] theorem State.countRead_frameLen (s : State) : s.countRead.frameLen = s.frameLen := rfl
@[simp] theorem State.countRead_hdr (s : State) : s.countRead.hdr = s.hdr := rfl
@[simp] theorem State.countRead_req (s : State) : s.countRead.req = s.req := rfl
@[simp] theorem State.countRead_errInfo0 (s : State) : s.countRead.errInfo0 = s.errInfo0 := rfl
@[simp] theorem State.countRead_errInfo1 (s : State) : s.countRead.errInfo1 = s.errInfo1 := rfl
@[simp] theorem State.countRead_outDim (s : State) : s.countRead.outDim = s.outDim := rfl
@[simp] theorem State.countRead_mosaic (s : State) : s.countRead.mosaic = s.mosaic := rfl
@[simp] theorem State.countRead_rgb (s : State) : s.countRead.rgb = s.rgb := rfl
@[simp] theorem State.countRead_frame (s : State) : s.countRead.frame = s.frame := rfl
@[simp] theorem State.countRead_curOp (s : State) : s.countRead.curOp = s.curOp := rfl
@[simp] theorem State.countRead_capPhase (s : State) : s.countRead.capPhase = s.capPhase := rfl
@[simp] theorem State.countRead_openedHere (s : State) : s.countRead.openedHere = s.openedHere := rfl
@[simp] theorem State.countRead_accMax (s : State) : s.countRead.accMax = s.accMax := rfl
@[simp] theorem State.countRead_accHdrPending (s : State) : s.countRead.accHdrPending = s.accHdrPending := rfl
@[simp] theorem State.countRead_accStarted (s : State) : s.countRead.accStarted = s.accStarted := rfl
@[simp] theorem State.countRead_hostReply (s : State) : s.countRead.hostReply = s.hostReply := rfl
@[simp] theorem State.countRead_encoded (s : State) : s.countRead.encoded = s.encoded := rfl
@[simp] theorem State.countRead_linkLog (s : State) : s.countRead.linkLog = s.linkLog := rfl
@[simp] theorem State.countRead_linkAcks (s : State) : s.countRead.linkAcks = s.linkAcks := rfl
@[simp] theorem State.countRead_linkRx (s : State) : s.countRead.linkRx = s.linkRx := rfl
@[simp] theorem State.countRead_linkQueue (s : State) : s.countRead.linkQueue = s.linkQueue := rfl
@[simp] theorem State.countRead_draws (s : State) : s.countRead.draws = s.draws := rfl
@[simp] theorem State.countRead_schedule (s : State) : s.countRead.schedule = s.schedule := rfl
@[simp] theorem State.countRead_turn (s : State) : s.countRead.turn = s.turn := rfl

/-! ### `State.clearCounters` -/

@[simp] theorem State.clearCounters_status (s : State) : s.clearCounters.status = s.status := rfl
@[simp] theorem State.clearCounters_cfgDim (s : State) : s.clearCounters.cfgDim = s.cfgDim := rfl
@[simp] theorem State.clearCounters_cfgDemosaic (s : State) : s.clearCounters.cfgDemosaic = s.cfgDemosaic := rfl
@[simp] theorem State.clearCounters_cfgAcc (s : State) : s.clearCounters.cfgAcc = s.cfgAcc := rfl
@[simp] theorem State.clearCounters_accExpected (s : State) : s.clearCounters.accExpected = s.accExpected := rfl
@[simp] theorem State.clearCounters_accCount (s : State) : s.clearCounters.accCount = 0 := rfl
@[simp] theorem State.clearCounters_accAttempts (s : State) : s.clearCounters.accAttempts = 0 := rfl
@[simp] theorem State.clearCounters_frameLen (s : State) : s.clearCounters.frameLen = s.frameLen := rfl
@[simp] theorem State.clearCounters_hdr (s : State) : s.clearCounters.hdr = s.hdr := rfl
@[simp] theorem State.clearCounters_req (s : State) : s.clearCounters.req = s.req := rfl
@[simp] theorem State.clearCounters_errInfo0 (s : State) : s.clearCounters.errInfo0 = s.errInfo0 := rfl
@[simp] theorem State.clearCounters_errInfo1 (s : State) : s.clearCounters.errInfo1 = s.errInfo1 := rfl
@[simp] theorem State.clearCounters_outDim (s : State) : s.clearCounters.outDim = s.outDim := rfl
@[simp] theorem State.clearCounters_mosaic (s : State) : s.clearCounters.mosaic = s.mosaic := rfl
@[simp] theorem State.clearCounters_rgb (s : State) : s.clearCounters.rgb = s.rgb := rfl
@[simp] theorem State.clearCounters_frame (s : State) : s.clearCounters.frame = s.frame := rfl
@[simp] theorem State.clearCounters_curOp (s : State) : s.clearCounters.curOp = s.curOp := rfl
@[simp] theorem State.clearCounters_capPhase (s : State) : s.clearCounters.capPhase = s.capPhase := rfl
@[simp] theorem State.clearCounters_openedHere (s : State) : s.clearCounters.openedHere = s.openedHere := rfl
@[simp] theorem State.clearCounters_accMax (s : State) : s.clearCounters.accMax = s.cfgAcc.maxAttempts := rfl
@[simp] theorem State.clearCounters_accHdrPending (s : State) : s.clearCounters.accHdrPending = s.accHdrPending := rfl
@[simp] theorem State.clearCounters_accStarted (s : State) : s.clearCounters.accStarted = s.accStarted := rfl
@[simp] theorem State.clearCounters_hostReply (s : State) : s.clearCounters.hostReply = s.hostReply := rfl
@[simp] theorem State.clearCounters_encoded (s : State) : s.clearCounters.encoded = s.encoded := rfl
@[simp] theorem State.clearCounters_linkLog (s : State) : s.clearCounters.linkLog = s.linkLog := rfl
@[simp] theorem State.clearCounters_linkAcks (s : State) : s.clearCounters.linkAcks = s.linkAcks := rfl
@[simp] theorem State.clearCounters_linkRx (s : State) : s.clearCounters.linkRx = s.linkRx := rfl
@[simp] theorem State.clearCounters_linkQueue (s : State) : s.clearCounters.linkQueue = s.linkQueue := rfl
@[simp] theorem State.clearCounters_draws (s : State) : s.clearCounters.draws = s.draws := rfl
@[simp] theorem State.clearCounters_schedule (s : State) : s.clearCounters.schedule = s.schedule := rfl
@[simp] theorem State.clearCounters_turn (s : State) : s.clearCounters.turn = s.turn := rfl

/-! ### `State.receive` -/

@[simp] theorem State.receive_status (s : State) (chunk : List Byte) : (s.receive chunk).status = s.status := rfl
@[simp] theorem State.receive_cfgDim (s : State) (chunk : List Byte) : (s.receive chunk).cfgDim = s.cfgDim := rfl
@[simp] theorem State.receive_cfgDemosaic (s : State) (chunk : List Byte) : (s.receive chunk).cfgDemosaic =
    s.cfgDemosaic := rfl
@[simp] theorem State.receive_cfgAcc (s : State) (chunk : List Byte) : (s.receive chunk).cfgAcc = s.cfgAcc := rfl
@[simp] theorem State.receive_accExpected (s : State) (chunk : List Byte) : (s.receive chunk).accExpected =
    s.accExpected := rfl
@[simp] theorem State.receive_accCount (s : State) (chunk : List Byte) : (s.receive chunk).accCount =
    s.accCount + BitVec.ofNat 32 chunk.length := rfl
@[simp] theorem State.receive_accAttempts (s : State) (chunk : List Byte) : (s.receive chunk).accAttempts =
    s.accAttempts := rfl
@[simp] theorem State.receive_frameLen (s : State) (chunk : List Byte) : (s.receive chunk).frameLen =
    s.frameLen + BitVec.ofNat 32 chunk.length := rfl
@[simp] theorem State.receive_hdr (s : State) (chunk : List Byte) : (s.receive chunk).hdr = s.hdr := rfl
@[simp] theorem State.receive_req (s : State) (chunk : List Byte) : (s.receive chunk).req = s.req := rfl
@[simp] theorem State.receive_errInfo0 (s : State) (chunk : List Byte) : (s.receive chunk).errInfo0 =
    s.errInfo0 := rfl
@[simp] theorem State.receive_errInfo1 (s : State) (chunk : List Byte) : (s.receive chunk).errInfo1 =
    s.errInfo1 := rfl
@[simp] theorem State.receive_outDim (s : State) (chunk : List Byte) : (s.receive chunk).outDim = s.outDim := rfl
@[simp] theorem State.receive_mosaic (s : State) (chunk : List Byte) : (s.receive chunk).mosaic = s.mosaic := rfl
@[simp] theorem State.receive_rgb (s : State) (chunk : List Byte) : (s.receive chunk).rgb = s.rgb := rfl
@[simp] theorem State.receive_frame (s : State) (chunk : List Byte) : (s.receive chunk).frame =
    s.frame.writeBlock s.frameLen.toNat chunk := rfl
@[simp] theorem State.receive_curOp (s : State) (chunk : List Byte) : (s.receive chunk).curOp = s.curOp := rfl
@[simp] theorem State.receive_capPhase (s : State) (chunk : List Byte) : (s.receive chunk).capPhase =
    s.capPhase := rfl
@[simp] theorem State.receive_openedHere (s : State) (chunk : List Byte) : (s.receive chunk).openedHere =
    s.openedHere := rfl
@[simp] theorem State.receive_accMax (s : State) (chunk : List Byte) : (s.receive chunk).accMax = s.accMax := rfl
@[simp] theorem State.receive_accHdrPending (s : State) (chunk : List Byte) : (s.receive chunk).accHdrPending =
    s.accHdrPending := rfl
@[simp] theorem State.receive_accStarted (s : State) (chunk : List Byte) : (s.receive chunk).accStarted =
    s.accStarted := rfl
@[simp] theorem State.receive_hostReply (s : State) (chunk : List Byte) : (s.receive chunk).hostReply =
    s.hostReply := rfl
@[simp] theorem State.receive_encoded (s : State) (chunk : List Byte) : (s.receive chunk).encoded = s.encoded := rfl
@[simp] theorem State.receive_linkLog (s : State) (chunk : List Byte) : (s.receive chunk).linkLog = s.linkLog := rfl
@[simp] theorem State.receive_linkAcks (s : State) (chunk : List Byte) : (s.receive chunk).linkAcks =
    s.linkAcks := rfl
@[simp] theorem State.receive_linkRx (s : State) (chunk : List Byte) : (s.receive chunk).linkRx = s.linkRx := rfl
@[simp] theorem State.receive_linkQueue (s : State) (chunk : List Byte) : (s.receive chunk).linkQueue =
    s.linkQueue := rfl
@[simp] theorem State.receive_draws (s : State) (chunk : List Byte) : (s.receive chunk).draws = s.draws := rfl
@[simp] theorem State.receive_schedule (s : State) (chunk : List Byte) : (s.receive chunk).schedule =
    s.schedule := rfl
@[simp] theorem State.receive_turn (s : State) (chunk : List Byte) : (s.receive chunk).turn = s.turn := rfl

/-! ### `State.platformReset` -/

@[simp] theorem State.platformReset_status (s : State) : s.platformReset.status = State.reset.status := rfl
@[simp] theorem State.platformReset_cfgDim (s : State) : s.platformReset.cfgDim = State.reset.cfgDim := rfl
@[simp] theorem State.platformReset_cfgDemosaic (s : State) : s.platformReset.cfgDemosaic =
    State.reset.cfgDemosaic := rfl
@[simp] theorem State.platformReset_cfgAcc (s : State) : s.platformReset.cfgAcc = State.reset.cfgAcc := rfl
@[simp] theorem State.platformReset_accExpected (s : State) : s.platformReset.accExpected =
    State.reset.accExpected := rfl
@[simp] theorem State.platformReset_accCount (s : State) : s.platformReset.accCount = State.reset.accCount := rfl
@[simp] theorem State.platformReset_accAttempts (s : State) : s.platformReset.accAttempts =
    State.reset.accAttempts := rfl
@[simp] theorem State.platformReset_frameLen (s : State) : s.platformReset.frameLen = State.reset.frameLen := rfl
@[simp] theorem State.platformReset_hdr (s : State) : s.platformReset.hdr = State.reset.hdr := rfl
@[simp] theorem State.platformReset_req (s : State) : s.platformReset.req = State.reset.req := rfl
@[simp] theorem State.platformReset_errInfo0 (s : State) : s.platformReset.errInfo0 = State.reset.errInfo0 := rfl
@[simp] theorem State.platformReset_errInfo1 (s : State) : s.platformReset.errInfo1 = State.reset.errInfo1 := rfl
@[simp] theorem State.platformReset_outDim (s : State) : s.platformReset.outDim = State.reset.outDim := rfl
@[simp] theorem State.platformReset_mosaic (s : State) : s.platformReset.mosaic = s.mosaic := rfl
@[simp] theorem State.platformReset_rgb (s : State) : s.platformReset.rgb = s.rgb := rfl
@[simp] theorem State.platformReset_frame (s : State) : s.platformReset.frame = s.frame := rfl
@[simp] theorem State.platformReset_curOp (s : State) : s.platformReset.curOp = State.reset.curOp := rfl
@[simp] theorem State.platformReset_capPhase (s : State) : s.platformReset.capPhase = State.reset.capPhase := rfl
@[simp] theorem State.platformReset_openedHere (s : State) : s.platformReset.openedHere =
    State.reset.openedHere := rfl
@[simp] theorem State.platformReset_accMax (s : State) : s.platformReset.accMax = State.reset.accMax := rfl
@[simp] theorem State.platformReset_accHdrPending (s : State) : s.platformReset.accHdrPending =
    State.reset.accHdrPending := rfl
@[simp] theorem State.platformReset_accStarted (s : State) : s.platformReset.accStarted =
    State.reset.accStarted := rfl
@[simp] theorem State.platformReset_hostReply (s : State) : s.platformReset.hostReply = s.hostReply := rfl
@[simp] theorem State.platformReset_encoded (s : State) : s.platformReset.encoded = s.encoded := rfl
@[simp] theorem State.platformReset_linkLog (s : State) : s.platformReset.linkLog =
    if s.status.linkOpen then s.linkLog ++ [.linkClose] else s.linkLog := rfl
@[simp] theorem State.platformReset_linkAcks (s : State) : s.platformReset.linkAcks = s.linkAcks := rfl
@[simp] theorem State.platformReset_linkRx (s : State) : s.platformReset.linkRx = s.linkRx := rfl
@[simp] theorem State.platformReset_linkQueue (s : State) : s.platformReset.linkQueue = s.linkQueue := rfl
@[simp] theorem State.platformReset_draws (s : State) : s.platformReset.draws = s.draws := rfl
@[simp] theorem State.platformReset_schedule (s : State) : s.platformReset.schedule = s.schedule := rfl
@[simp] theorem State.platformReset_turn (s : State) : s.platformReset.turn = s.turn := rfl

/-! ### `State.placeFirst` -/

@[simp] theorem State.placeFirst_status (s : State) (p : Packet) : (s.placeFirst p).status = s.status := rfl
@[simp] theorem State.placeFirst_cfgDim (s : State) (p : Packet) : (s.placeFirst p).cfgDim = s.cfgDim := rfl
@[simp] theorem State.placeFirst_cfgDemosaic (s : State) (p : Packet) : (s.placeFirst p).cfgDemosaic =
    s.cfgDemosaic := rfl
@[simp] theorem State.placeFirst_cfgAcc (s : State) (p : Packet) : (s.placeFirst p).cfgAcc = s.cfgAcc := rfl
@[simp] theorem State.placeFirst_accExpected (s : State) (p : Packet) : (s.placeFirst p).accExpected =
    s.accExpected := rfl
@[simp] theorem State.placeFirst_accCount (s : State) (p : Packet) : (s.placeFirst p).accCount = s.accCount := rfl
@[simp] theorem State.placeFirst_accAttempts (s : State) (p : Packet) : (s.placeFirst p).accAttempts =
    s.accAttempts := rfl
@[simp] theorem State.placeFirst_frameLen (s : State) (p : Packet) : (s.placeFirst p).frameLen = s.frameLen := rfl
@[simp] theorem State.placeFirst_hdr (s : State) (p : Packet) : (s.placeFirst p).hdr = s.hdr := rfl
@[simp] theorem State.placeFirst_req (s : State) (p : Packet) : (s.placeFirst p).req = s.req := rfl
@[simp] theorem State.placeFirst_errInfo0 (s : State) (p : Packet) : (s.placeFirst p).errInfo0 = s.errInfo0 := rfl
@[simp] theorem State.placeFirst_errInfo1 (s : State) (p : Packet) : (s.placeFirst p).errInfo1 = s.errInfo1 := rfl
@[simp] theorem State.placeFirst_outDim (s : State) (p : Packet) : (s.placeFirst p).outDim = s.outDim := rfl
@[simp] theorem State.placeFirst_mosaic (s : State) (p : Packet) : (s.placeFirst p).mosaic = s.mosaic := rfl
@[simp] theorem State.placeFirst_rgb (s : State) (p : Packet) : (s.placeFirst p).rgb = s.rgb := rfl
@[simp] theorem State.placeFirst_frame (s : State) (p : Packet) : (s.placeFirst p).frame = s.frame := rfl
@[simp] theorem State.placeFirst_curOp (s : State) (p : Packet) : (s.placeFirst p).curOp = s.curOp := rfl
@[simp] theorem State.placeFirst_capPhase (s : State) (p : Packet) : (s.placeFirst p).capPhase = s.capPhase := rfl
@[simp] theorem State.placeFirst_openedHere (s : State) (p : Packet) : (s.placeFirst p).openedHere =
    s.openedHere := rfl
@[simp] theorem State.placeFirst_accMax (s : State) (p : Packet) : (s.placeFirst p).accMax = s.accMax := rfl
@[simp] theorem State.placeFirst_accHdrPending (s : State) (p : Packet) : (s.placeFirst p).accHdrPending =
    s.accHdrPending := rfl
@[simp] theorem State.placeFirst_accStarted (s : State) (p : Packet) : (s.placeFirst p).accStarted =
    s.accStarted := rfl
@[simp] theorem State.placeFirst_hostReply (s : State) (p : Packet) : (s.placeFirst p).hostReply = s.hostReply := rfl
@[simp] theorem State.placeFirst_encoded (s : State) (p : Packet) : (s.placeFirst p).encoded = s.encoded := rfl
@[simp] theorem State.placeFirst_linkLog (s : State) (p : Packet) : (s.placeFirst p).linkLog = s.linkLog := rfl
@[simp] theorem State.placeFirst_linkAcks (s : State) (p : Packet) : (s.placeFirst p).linkAcks = s.linkAcks := rfl
@[simp] theorem State.placeFirst_linkRx (s : State) (p : Packet) : (s.placeFirst p).linkRx = s.linkRx := rfl
@[simp] theorem State.placeFirst_linkQueue (s : State) (p : Packet) : (s.placeFirst p).linkQueue = s.linkQueue := rfl
@[simp] theorem State.placeFirst_draws (s : State) (p : Packet) : (s.placeFirst p).draws = s.draws := rfl
@[simp] theorem State.placeFirst_schedule (s : State) (p : Packet) : (s.placeFirst p).schedule =
    .packet p :: s.schedule := rfl
@[simp] theorem State.placeFirst_turn (s : State) (p : Packet) : (s.placeFirst p).turn = s.turn := rfl

/-! ### `State.poke`: nothing but the memory of the space -/

@[simp] theorem State.poke_status (s : State) (space : Space) (base : Nat) (bs : List Byte) :
    (s.poke space base bs).status = s.status := by cases space <;> rfl
@[simp] theorem State.poke_cfgDim (s : State) (space : Space) (base : Nat) (bs : List Byte) :
    (s.poke space base bs).cfgDim = s.cfgDim := by cases space <;> rfl
@[simp] theorem State.poke_cfgDemosaic (s : State) (space : Space) (base : Nat) (bs : List Byte) :
    (s.poke space base bs).cfgDemosaic = s.cfgDemosaic := by cases space <;> rfl
@[simp] theorem State.poke_cfgAcc (s : State) (space : Space) (base : Nat) (bs : List Byte) :
    (s.poke space base bs).cfgAcc = s.cfgAcc := by cases space <;> rfl
@[simp] theorem State.poke_accExpected (s : State) (space : Space) (base : Nat) (bs : List Byte) :
    (s.poke space base bs).accExpected = s.accExpected := by cases space <;> rfl
@[simp] theorem State.poke_accCount (s : State) (space : Space) (base : Nat) (bs : List Byte) :
    (s.poke space base bs).accCount = s.accCount := by cases space <;> rfl
@[simp] theorem State.poke_accAttempts (s : State) (space : Space) (base : Nat) (bs : List Byte) :
    (s.poke space base bs).accAttempts = s.accAttempts := by cases space <;> rfl
@[simp] theorem State.poke_frameLen (s : State) (space : Space) (base : Nat) (bs : List Byte) :
    (s.poke space base bs).frameLen = s.frameLen := by cases space <;> rfl
@[simp] theorem State.poke_hdr (s : State) (space : Space) (base : Nat) (bs : List Byte) :
    (s.poke space base bs).hdr = s.hdr := by cases space <;> rfl
@[simp] theorem State.poke_req (s : State) (space : Space) (base : Nat) (bs : List Byte) :
    (s.poke space base bs).req = s.req := by cases space <;> rfl
@[simp] theorem State.poke_errInfo0 (s : State) (space : Space) (base : Nat) (bs : List Byte) :
    (s.poke space base bs).errInfo0 = s.errInfo0 := by cases space <;> rfl
@[simp] theorem State.poke_errInfo1 (s : State) (space : Space) (base : Nat) (bs : List Byte) :
    (s.poke space base bs).errInfo1 = s.errInfo1 := by cases space <;> rfl
@[simp] theorem State.poke_outDim (s : State) (space : Space) (base : Nat) (bs : List Byte) :
    (s.poke space base bs).outDim = s.outDim := by cases space <;> rfl
@[simp] theorem State.poke_curOp (s : State) (space : Space) (base : Nat) (bs : List Byte) :
    (s.poke space base bs).curOp = s.curOp := by cases space <;> rfl
@[simp] theorem State.poke_capPhase (s : State) (space : Space) (base : Nat) (bs : List Byte) :
    (s.poke space base bs).capPhase = s.capPhase := by cases space <;> rfl
@[simp] theorem State.poke_openedHere (s : State) (space : Space) (base : Nat) (bs : List Byte) :
    (s.poke space base bs).openedHere = s.openedHere := by cases space <;> rfl
@[simp] theorem State.poke_accMax (s : State) (space : Space) (base : Nat) (bs : List Byte) :
    (s.poke space base bs).accMax = s.accMax := by cases space <;> rfl
@[simp] theorem State.poke_accHdrPending (s : State) (space : Space) (base : Nat) (bs : List Byte) :
    (s.poke space base bs).accHdrPending = s.accHdrPending := by cases space <;> rfl
@[simp] theorem State.poke_accStarted (s : State) (space : Space) (base : Nat) (bs : List Byte) :
    (s.poke space base bs).accStarted = s.accStarted := by cases space <;> rfl
@[simp] theorem State.poke_hostReply (s : State) (space : Space) (base : Nat) (bs : List Byte) :
    (s.poke space base bs).hostReply = s.hostReply := by cases space <;> rfl
@[simp] theorem State.poke_encoded (s : State) (space : Space) (base : Nat) (bs : List Byte) :
    (s.poke space base bs).encoded = s.encoded := by cases space <;> rfl
@[simp] theorem State.poke_linkLog (s : State) (space : Space) (base : Nat) (bs : List Byte) :
    (s.poke space base bs).linkLog = s.linkLog := by cases space <;> rfl
@[simp] theorem State.poke_linkAcks (s : State) (space : Space) (base : Nat) (bs : List Byte) :
    (s.poke space base bs).linkAcks = s.linkAcks := by cases space <;> rfl
@[simp] theorem State.poke_linkRx (s : State) (space : Space) (base : Nat) (bs : List Byte) :
    (s.poke space base bs).linkRx = s.linkRx := by cases space <;> rfl
@[simp] theorem State.poke_linkQueue (s : State) (space : Space) (base : Nat) (bs : List Byte) :
    (s.poke space base bs).linkQueue = s.linkQueue := by cases space <;> rfl
@[simp] theorem State.poke_draws (s : State) (space : Space) (base : Nat) (bs : List Byte) :
    (s.poke space base bs).draws = s.draws := by cases space <;> rfl
@[simp] theorem State.poke_schedule (s : State) (space : Space) (base : Nat) (bs : List Byte) :
    (s.poke space base bs).schedule = s.schedule := by cases space <;> rfl
@[simp] theorem State.poke_turn (s : State) (space : Space) (base : Nat) (bs : List Byte) :
    (s.poke space base bs).turn = s.turn := by cases space <;> rfl

@[simp] theorem State.poke_mosaic_mosaic (s : State) (base : Nat) (bs : List Byte) :
    (s.poke .mosaic base bs).mosaic = s.mosaic.writeBlock base bs := rfl
@[simp] theorem State.poke_mosaic_rgb (s : State) (base : Nat) (bs : List Byte) :
    (s.poke .mosaic base bs).rgb = s.rgb := rfl
@[simp] theorem State.poke_mosaic_frame (s : State) (base : Nat) (bs : List Byte) :
    (s.poke .mosaic base bs).frame = s.frame := rfl
@[simp] theorem State.poke_rgb_mosaic (s : State) (base : Nat) (bs : List Byte) :
    (s.poke .rgb base bs).mosaic = s.mosaic := rfl
@[simp] theorem State.poke_rgb_rgb (s : State) (base : Nat) (bs : List Byte) :
    (s.poke .rgb base bs).rgb = s.rgb.writeBlock base bs := rfl
@[simp] theorem State.poke_rgb_frame (s : State) (base : Nat) (bs : List Byte) :
    (s.poke .rgb base bs).frame = s.frame := rfl
@[simp] theorem State.poke_frame_mosaic (s : State) (base : Nat) (bs : List Byte) :
    (s.poke .frame base bs).mosaic = s.mosaic := rfl
@[simp] theorem State.poke_frame_rgb (s : State) (base : Nat) (bs : List Byte) :
    (s.poke .frame base bs).rgb = s.rgb := rfl
@[simp] theorem State.poke_frame_frame (s : State) (base : Nat) (bs : List Byte) :
    (s.poke .frame base bs).frame = s.frame.writeBlock base bs := rfl

end Sys2Proof.Machine
end

