-- ==== Sys2Proof/Laws/Memory.lean ====
section
/-! SUPPORT. The byte memories: a read after a write, and the canonical form that every write keeps. -/

namespace Sys2Proof.Machine

open Sys2Proof

/-! ### Reads of lists of cells -/

@[simp] theorem Memory.read?_nil (x : Nat) : Memory.read? [] x = none := rfl

theorem Memory.read?_cons (c : Host.Cell) (m : Memory) (x : Nat) :
    Memory.read? (c :: m) x = if x = c.1 then some c.2 else Memory.read? m x := rfl

theorem Memory.read?_append (m n : Memory) (x : Nat) :
    Memory.read? (m ++ n) x = (Memory.read? m x).or (Memory.read? n x) := by
  induction m with
  | nil => simp
  | cons c m ih =>
    simp only [List.cons_append, Memory.read?_cons, ih]
    split <;> simp

theorem Memory.read?_filter (p : Nat → Bool) (m : Memory) (x : Nat) :
    Memory.read? (m.filter fun c => p c.1) x = if p x then Memory.read? m x else none := by
  induction m with
  | nil => simp
  | cons c m ih =>
    by_cases hp : p c.1 <;> by_cases hx : x = c.1 <;> simp_all [Memory.read?_cons]

theorem Memory.read?_cells (base : Nat) (bs : List Byte) (x : Nat) :
    Memory.read? (Memory.cells base bs) x = if base ≤ x then bs[x - base]? else none := by
  induction bs generalizing base with
  | nil => simp [Memory.cells]
  | cons b bs ih =>
    simp only [Memory.cells, Memory.read?_cons, ih]
    by_cases hx : x = base
    · simp [hx]
    · by_cases hlt : base < x
      · have : x - base = (x - (base + 1)) + 1 := by omega
        simp [hx, this, Nat.succ_le_of_lt hlt, Nat.le_of_lt hlt]
      · have h1 : ¬ base + 1 ≤ x := by omega
        have h2 : ¬ base ≤ x := by omega
        simp [hx, h1, h2]

/-- A read after the one write of the model: the written bytes inside the block, what stood there outside. -/
theorem Memory.read?_writeBlock (m : Memory) (base : Nat) (bs : List Byte) (x : Nat) :
    (m.writeBlock base bs).read? x =
      if base ≤ x ∧ x < base + bs.length then bs[x - base]? else m.read? x := by
  have hlow := Memory.read?_filter (fun a => decide (a < base)) m x
  have hhigh := Memory.read?_filter (fun a => decide (base + bs.length ≤ a)) m x
  simp only [decide_eq_true_eq] at hlow hhigh
  simp only [Memory.writeBlock, Memory.read?_append, hlow, hhigh, Memory.read?_cells]
  by_cases h1 : x < base
  · have : ¬ base ≤ x := by omega
    have h3 : ¬ base + bs.length ≤ x := by omega
    simp [h1, this, h3]
  · have h2 : base ≤ x := by omega
    by_cases h3 : x < base + bs.length
    · have h4 : ¬ base + bs.length ≤ x := by omega
      simp [h1, h2, h3, h4]
    · have h4 : base + bs.length ≤ x := by omega
      have h5 : bs.length ≤ x - base := by omega
      simp [h1, h2, h3, h4, List.getElem?_eq_none h5]

/-! ### The canonical form -/

theorem Memory.mem_cells {c : Host.Cell} {base : Nat} {bs : List Byte} (h : c ∈ Memory.cells base bs) :
    base ≤ c.1 ∧ c.1 < base + bs.length := by
  induction bs generalizing base with
  | nil => simp [Memory.cells] at h
  | cons b bs ih =>
    simp only [Memory.cells, List.mem_cons] at h
    simp only [List.length_cons]
    rcases h with rfl | h
    · constructor <;> simp
    · have := ih h
      omega

theorem Memory.cells_wf (base : Nat) (bs : List Byte) : (Memory.cells base bs).wf := by
  induction bs generalizing base with
  | nil => exact List.Pairwise.nil
  | cons b bs ih =>
    refine List.Pairwise.cons (fun c hc => ?_) (ih (base + 1))
    have := Memory.mem_cells hc
    simp only
    omega

/-- Every write keeps the canonical form. -/
theorem Memory.writeBlock_wf {m : Memory} (h : m.wf) (base : Nat) (bs : List Byte) : (m.writeBlock base bs).wf := by
  refine List.pairwise_append.2 ⟨List.pairwise_append.2 ⟨h.filter _, Memory.cells_wf base bs, ?_⟩, h.filter _, ?_⟩
  · intro a ha b hb
    have h1 := (List.mem_filter.1 ha).2
    have h2 := Memory.mem_cells hb
    simp only [decide_eq_true_eq] at h1
    omega
  · intro a ha b hb
    have h2 := (List.mem_filter.1 hb).2
    simp only [decide_eq_true_eq] at h2
    rcases List.mem_append.1 ha with ha | ha
    · have h1 := (List.mem_filter.1 ha).2
      simp only [decide_eq_true_eq] at h1
      omega
    · have h1 := Memory.mem_cells ha
      omega

/-- A write inside a space keeps every listed address inside it. -/
theorem Memory.writeBlock_within {m : Memory} {size : Nat} (h : m.within size) {base : Nat} {bs : List Byte}
    (fits : base + bs.length ≤ size) : (m.writeBlock base bs).within size := by
  intro c hc
  simp only [Memory.writeBlock, List.mem_append, List.mem_filter] at hc
  rcases hc with (⟨hc, -⟩ | hc) | ⟨hc, -⟩
  · exact h c hc
  · have := Memory.mem_cells hc
    omega
  · exact h c hc

theorem Memory.reset_wf : State.reset.mosaic.wf ∧ State.reset.rgb.wf ∧ State.reset.frame.wf :=
  ⟨List.Pairwise.nil, List.Pairwise.nil, List.Pairwise.nil⟩

/-! ### One byte of a space -/

/-- What a read of one byte gives after a write: the written bytes inside the block of the written space, what it gave
before everywhere else. -/
theorem State.peek_poke (s : State) (space other : Space) (base : Nat) (bs : List Byte) (addr : Nat) :
    (s.poke space base bs).peek other addr =
      if h : other = space ∧ base ≤ addr ∧ addr - base < bs.length then bs[addr - base]'h.2.2
      else s.peek other addr := by
  cases space <;> cases other <;>
    simp only [State.peek, State.poke, State.memory, Memory.read?_writeBlock, reduceCtorEq, false_and, dite_false,
      true_and]
  all_goals
    by_cases h1 : base ≤ addr
    · by_cases h2 : addr - base < bs.length
      · have h3 : addr < base + bs.length := by omega
        simp [h1, h2, h3]
      · have h3 : ¬ addr < base + bs.length := by omega
        simp [h2, h3]
    · simp [h1]

/-- A write changes no byte of another space. -/
theorem State.peek_poke_other (s : State) {space other : Space} (h : other ≠ space) (base : Nat) (bs : List Byte)
    (addr : Nat) : (s.poke space base bs).peek other addr = s.peek other addr := by
  simp [State.peek_poke, h]

/-- A read of one byte looks at the memory of its space alone. -/
theorem State.peek_congr {s t : State} {space : Space} (h : s.memory space = t.memory space) (addr : Nat) :
    s.peek space addr = t.peek space addr := by
  simp [State.peek, h]

@[simp] theorem State.memory_mosaic (s : State) : s.memory .mosaic = s.mosaic := rfl
@[simp] theorem State.memory_rgb (s : State) : s.memory .rgb = s.rgb := rfl
@[simp] theorem State.memory_frame (s : State) : s.memory .frame = s.frame := rfl

@[simp] theorem State.peekBlock_length (s : State) (space : Space) (base n : Nat) :
    (s.peekBlock space base n).length = n := by
  simp [State.peekBlock]

end Sys2Proof.Machine
end

