-- ==== Sys2Proof/Laws/Link.lean ====
section
/-! SUPPORT. The link port: what one operation on it can do, and that it touches no register, no memory and no hidden
state of the block. -/

namespace Sys2Proof.Machine

open Sys2Proof

/-! ### `State.linkAck` -/

/-- All that an acknowledged operation can do: it is logged and takes the next answer lined up, or a free value. -/
theorem State.linkAck_spec (s : State) (op : LinkOp) :
    (∃ answer rest, s.linkAcks = answer :: rest ∧
        s.linkAck op = (answer, { s.issueLink op with linkAcks := rest })) ∨
      (s.linkAcks = [] ∧ s.linkAck op = (Config.linkOk s.draws, { s.issueLink op with draws := s.draws + 1 })) := by
  unfold State.linkAck
  split
  · rename_i answer rest h
    exact .inl ⟨answer, rest, h, rfl⟩
  · rename_i h
    exact .inr ⟨h, rfl⟩

@[simp] theorem State.linkAck_status (s : State) (op : LinkOp) : (s.linkAck op).2.status = s.status := by
  unfold State.linkAck; split <;> rfl
@[simp] theorem State.linkAck_cfgDim (s : State) (op : LinkOp) : (s.linkAck op).2.cfgDim = s.cfgDim := by
  unfold State.linkAck; split <;> rfl
@[simp] theorem State.linkAck_cfgDemosaic (s : State) (op : LinkOp) : (s.linkAck op).2.cfgDemosaic = s.cfgDemosaic := by
  unfold State.linkAck; split <;> rfl
@[simp] theorem State.linkAck_cfgAcc (s : State) (op : LinkOp) : (s.linkAck op).2.cfgAcc = s.cfgAcc := by
  unfold State.linkAck; split <;> rfl
@[simp] theorem State.linkAck_accExpected (s : State) (op : LinkOp) : (s.linkAck op).2.accExpected = s.accExpected := by
  unfold State.linkAck; split <;> rfl
@[simp] theorem State.linkAck_accCount (s : State) (op : LinkOp) : (s.linkAck op).2.accCount = s.accCount := by
  unfold State.linkAck; split <;> rfl
@[simp] theorem State.linkAck_accAttempts (s : State) (op : LinkOp) : (s.linkAck op).2.accAttempts = s.accAttempts := by
  unfold State.linkAck; split <;> rfl
@[simp] theorem State.linkAck_frameLen (s : State) (op : LinkOp) : (s.linkAck op).2.frameLen = s.frameLen := by
  unfold State.linkAck; split <;> rfl
@[simp] theorem State.linkAck_hdr (s : State) (op : LinkOp) : (s.linkAck op).2.hdr = s.hdr := by
  unfold State.linkAck; split <;> rfl
@[simp] theorem State.linkAck_req (s : State) (op : LinkOp) : (s.linkAck op).2.req = s.req := by
  unfold State.linkAck; split <;> rfl
@[simp] theorem State.linkAck_errInfo0 (s : State) (op : LinkOp) : (s.linkAck op).2.errInfo0 = s.errInfo0 := by
  unfold State.linkAck; split <;> rfl
@[simp] theorem State.linkAck_errInfo1 (s : State) (op : LinkOp) : (s.linkAck op).2.errInfo1 = s.errInfo1 := by
  unfold State.linkAck; split <;> rfl
@[simp] theorem State.linkAck_outDim (s : State) (op : LinkOp) : (s.linkAck op).2.outDim = s.outDim := by
  unfold State.linkAck; split <;> rfl
@[simp] theorem State.linkAck_mosaic (s : State) (op : LinkOp) : (s.linkAck op).2.mosaic = s.mosaic := by
  unfold State.linkAck; split <;> rfl
@[simp] theorem State.linkAck_rgb (s : State) (op : LinkOp) : (s.linkAck op).2.rgb = s.rgb := by
  unfold State.linkAck; split <;> rfl
@[simp] theorem State.linkAck_frame (s : State) (op : LinkOp) : (s.linkAck op).2.frame = s.frame := by
  unfold State.linkAck; split <;> rfl
@[simp] theorem State.linkAck_curOp (s : State) (op : LinkOp) : (s.linkAck op).2.curOp = s.curOp := by
  unfold State.linkAck; split <;> rfl
@[simp] theorem State.linkAck_capPhase (s : State) (op : LinkOp) : (s.linkAck op).2.capPhase = s.capPhase := by
  unfold State.linkAck; split <;> rfl
@[simp] theorem State.linkAck_openedHere (s : State) (op : LinkOp) : (s.linkAck op).2.openedHere = s.openedHere := by
  unfold State.linkAck; split <;> rfl
@[simp] theorem State.linkAck_accMax (s : State) (op : LinkOp) : (s.linkAck op).2.accMax = s.accMax := by
  unfold State.linkAck; split <;> rfl
@[simp] theorem State.linkAck_accHdrPending (s : State) (op : LinkOp) : (s.linkAck op).2.accHdrPending = s.accHdrPending := by
  unfold State.linkAck; split <;> rfl
@[simp] theorem State.linkAck_accStarted (s : State) (op : LinkOp) : (s.linkAck op).2.accStarted = s.accStarted := by
  unfold State.linkAck; split <;> rfl
@[simp] theorem State.linkAck_hostReply (s : State) (op : LinkOp) : (s.linkAck op).2.hostReply = s.hostReply := by
  unfold State.linkAck; split <;> rfl
@[simp] theorem State.linkAck_encoded (s : State) (op : LinkOp) : (s.linkAck op).2.encoded = s.encoded := by
  unfold State.linkAck; split <;> rfl
@[simp] theorem State.linkAck_linkLog (s : State) (op : LinkOp) : (s.linkAck op).2.linkLog = s.linkLog ++ [op] := by
  unfold State.linkAck; split <;> rfl
@[simp] theorem State.linkAck_linkRx (s : State) (op : LinkOp) : (s.linkAck op).2.linkRx = s.linkRx := by
  unfold State.linkAck; split <;> rfl
@[simp] theorem State.linkAck_linkQueue (s : State) (op : LinkOp) : (s.linkAck op).2.linkQueue = s.linkQueue := by
  unfold State.linkAck; split <;> rfl
@[simp] theorem State.linkAck_schedule (s : State) (op : LinkOp) : (s.linkAck op).2.schedule = s.schedule := by
  unfold State.linkAck; split <;> rfl
@[simp] theorem State.linkAck_turn (s : State) (op : LinkOp) : (s.linkAck op).2.turn = s.turn := by
  unfold State.linkAck; split <;> rfl

/-! ### `State.resetLink` -/

/-- All that a reset of the link can do beside taking the answer: on `fail` what the device holds is free, on `ok` its
queue and `FRAME_LEN` are emptied (40_link_request.md R104). -/
theorem State.resetLink_spec (s : State) :
    ((s.linkAck .linkReset).1 = false ∧ s.resetLink = (false, (s.linkAck .linkReset).2.linkFailed)) ∨
      ((s.linkAck .linkReset).1 = true ∧
        s.resetLink = (true, { (s.linkAck .linkReset).2 with linkQueue := [], frameLen := 0 })) := by
  unfold State.resetLink
  generalize s.linkAck .linkReset = answer
  obtain ⟨b, s1⟩ := answer
  cases b
  · exact .inl ⟨rfl, rfl⟩
  · exact .inr ⟨rfl, rfl⟩

@[simp] theorem State.resetLink_status (s : State) : s.resetLink.2.status = s.status := by
  rcases s.resetLink_spec with ⟨-, h⟩ | ⟨-, h⟩ <;> rw [h] <;> simp
@[simp] theorem State.resetLink_cfgDim (s : State) : s.resetLink.2.cfgDim = s.cfgDim := by
  rcases s.resetLink_spec with ⟨-, h⟩ | ⟨-, h⟩ <;> rw [h] <;> simp
@[simp] theorem State.resetLink_cfgDemosaic (s : State) : s.resetLink.2.cfgDemosaic = s.cfgDemosaic := by
  rcases s.resetLink_spec with ⟨-, h⟩ | ⟨-, h⟩ <;> rw [h] <;> simp
@[simp] theorem State.resetLink_cfgAcc (s : State) : s.resetLink.2.cfgAcc = s.cfgAcc := by
  rcases s.resetLink_spec with ⟨-, h⟩ | ⟨-, h⟩ <;> rw [h] <;> simp
@[simp] theorem State.resetLink_accExpected (s : State) : s.resetLink.2.accExpected = s.accExpected := by
  rcases s.resetLink_spec with ⟨-, h⟩ | ⟨-, h⟩ <;> rw [h] <;> simp
@[simp] theorem State.resetLink_accCount (s : State) : s.resetLink.2.accCount = s.accCount := by
  rcases s.resetLink_spec with ⟨-, h⟩ | ⟨-, h⟩ <;> rw [h] <;> simp
@[simp] theorem State.resetLink_accAttempts (s : State) : s.resetLink.2.accAttempts = s.accAttempts := by
  rcases s.resetLink_spec with ⟨-, h⟩ | ⟨-, h⟩ <;> rw [h] <;> simp
@[simp] theorem State.resetLink_hdr (s : State) : s.resetLink.2.hdr = s.hdr := by
  rcases s.resetLink_spec with ⟨-, h⟩ | ⟨-, h⟩ <;> rw [h] <;> simp
@[simp] theorem State.resetLink_req (s : State) : s.resetLink.2.req = s.req := by
  rcases s.resetLink_spec with ⟨-, h⟩ | ⟨-, h⟩ <;> rw [h] <;> simp
@[simp] theorem State.resetLink_errInfo0 (s : State) : s.resetLink.2.errInfo0 = s.errInfo0 := by
  rcases s.resetLink_spec with ⟨-, h⟩ | ⟨-, h⟩ <;> rw [h] <;> simp
@[simp] theorem State.resetLink_errInfo1 (s : State) : s.resetLink.2.errInfo1 = s.errInfo1 := by
  rcases s.resetLink_spec with ⟨-, h⟩ | ⟨-, h⟩ <;> rw [h] <;> simp
@[simp] theorem State.resetLink_outDim (s : State) : s.resetLink.2.outDim = s.outDim := by
  rcases s.resetLink_spec with ⟨-, h⟩ | ⟨-, h⟩ <;> rw [h] <;> simp
@[simp] theorem State.resetLink_mosaic (s : State) : s.resetLink.2.mosaic = s.mosaic := by
  rcases s.resetLink_spec with ⟨-, h⟩ | ⟨-, h⟩ <;> rw [h] <;> simp
@[simp] theorem State.resetLink_rgb (s : State) : s.resetLink.2.rgb = s.rgb := by
  rcases s.resetLink_spec with ⟨-, h⟩ | ⟨-, h⟩ <;> rw [h] <;> simp
@[simp] theorem State.resetLink_frame (s : State) : s.resetLink.2.frame = s.frame := by
  rcases s.resetLink_spec with ⟨-, h⟩ | ⟨-, h⟩ <;> rw [h] <;> simp
@[simp] theorem State.resetLink_curOp (s : State) : s.resetLink.2.curOp = s.curOp := by
  rcases s.resetLink_spec with ⟨-, h⟩ | ⟨-, h⟩ <;> rw [h] <;> simp
@[simp] theorem State.resetLink_capPhase (s : State) : s.resetLink.2.capPhase = s.capPhase := by
  rcases s.resetLink_spec with ⟨-, h⟩ | ⟨-, h⟩ <;> rw [h] <;> simp
@[simp] theorem State.resetLink_openedHere (s : State) : s.resetLink.2.openedHere = s.openedHere := by
  rcases s.resetLink_spec with ⟨-, h⟩ | ⟨-, h⟩ <;> rw [h] <;> simp
@[simp] theorem State.resetLink_accMax (s : State) : s.resetLink.2.accMax = s.accMax := by
  rcases s.resetLink_spec with ⟨-, h⟩ | ⟨-, h⟩ <;> rw [h] <;> simp
@[simp] theorem State.resetLink_accHdrPending (s : State) : s.resetLink.2.accHdrPending = s.accHdrPending := by
  rcases s.resetLink_spec with ⟨-, h⟩ | ⟨-, h⟩ <;> rw [h] <;> simp
@[simp] theorem State.resetLink_accStarted (s : State) : s.resetLink.2.accStarted = s.accStarted := by
  rcases s.resetLink_spec with ⟨-, h⟩ | ⟨-, h⟩ <;> rw [h] <;> simp
@[simp] theorem State.resetLink_hostReply (s : State) : s.resetLink.2.hostReply = s.hostReply := by
  rcases s.resetLink_spec with ⟨-, h⟩ | ⟨-, h⟩ <;> rw [h] <;> simp
@[simp] theorem State.resetLink_encoded (s : State) : s.resetLink.2.encoded = s.encoded := by
  rcases s.resetLink_spec with ⟨-, h⟩ | ⟨-, h⟩ <;> rw [h] <;> simp
@[simp] theorem State.resetLink_linkLog (s : State) : s.resetLink.2.linkLog = s.linkLog ++ [.linkReset] := by
  rcases s.resetLink_spec with ⟨-, h⟩ | ⟨-, h⟩ <;> rw [h] <;> simp
@[simp] theorem State.resetLink_linkRx (s : State) : s.resetLink.2.linkRx = s.linkRx := by
  rcases s.resetLink_spec with ⟨-, h⟩ | ⟨-, h⟩ <;> rw [h] <;> simp
@[simp] theorem State.resetLink_schedule (s : State) : s.resetLink.2.schedule = s.schedule := by
  rcases s.resetLink_spec with ⟨-, h⟩ | ⟨-, h⟩ <;> rw [h] <;> simp
@[simp] theorem State.resetLink_turn (s : State) : s.resetLink.2.turn = s.turn := by
  rcases s.resetLink_spec with ⟨-, h⟩ | ⟨-, h⟩ <;> rw [h] <;> simp

/-! ### `State.linkRead` -/

/-- All that a read can do: it is logged, and it changes nothing but what the link has lined up, the bytes queued in
the device and the draws taken; a chunk is no longer than the read asked for (40_link_request.md R100, R108). -/
theorem State.linkRead_spec (s : State) (r : Nat) :
    ∃ answer rx queue k,
      s.linkRead r =
          (answer, { s.issueLink (.linkRead r) with linkRx := rx, linkQueue := queue, draws := k }) ∧
        ∀ chunk, answer = some chunk → chunk.length ≤ r := by
  unfold State.linkRead
  split
  · exact ⟨none, _, _, _, rfl, by simp⟩
  · exact ⟨_, _, _, s.draws, rfl, by rintro _ ⟨⟩; simp⟩
  · exact ⟨_, _, _, s.draws, rfl, by rintro _ ⟨⟩; simp⟩
  · dsimp only
    split
    · exact ⟨none, s.linkRx, _, _, rfl, by simp⟩
    · exact ⟨_, s.linkRx, _, _, rfl, by rintro _ ⟨⟩; simp⟩

/-- What a read brings when the state says what has come in behind the bytes queued. -/
theorem State.linkRead_chunk {s : State} {bytes : List Byte} {rest : List RxItem} (h : s.linkRx = .chunk bytes :: rest)
    (r : Nat) :
    s.linkRead r =
      (some ((s.linkQueue ++ bytes).take r),
        { s.issueLink (.linkRead r) with linkRx := rest, linkQueue := (s.linkQueue ++ bytes).drop r }) := by
  simp only [State.linkRead, h]
  rfl

/-- What a read brings when the state says what the device holds. -/
theorem State.linkRead_altered {s : State} {held : List Byte} {rest : List RxItem} (h : s.linkRx = .altered held :: rest)
    (r : Nat) :
    s.linkRead r =
      (some (held.take r), { s.issueLink (.linkRead r) with linkRx := rest, linkQueue := held.drop r }) := by
  simp only [State.linkRead, h]
  rfl

/-- What a read that the link fails gives. -/
theorem State.linkRead_fail {s : State} {rest : List RxItem} (h : s.linkRx = .fail :: rest) (r : Nat) :
    s.linkRead r = (none, { s.issueLink (.linkRead r) with linkRx := rest }.linkFailed) := by
  simp only [State.linkRead, h]

@[simp] theorem State.linkRead_status (s : State) (r : Nat) : (s.linkRead r).2.status = s.status := by
  obtain ⟨_, _, _, _, h, -⟩ := s.linkRead_spec r; rw [h]; rfl
@[simp] theorem State.linkRead_cfgDim (s : State) (r : Nat) : (s.linkRead r).2.cfgDim = s.cfgDim := by
  obtain ⟨_, _, _, _, h, -⟩ := s.linkRead_spec r; rw [h]; rfl
@[simp] theorem State.linkRead_cfgDemosaic (s : State) (r : Nat) : (s.linkRead r).2.cfgDemosaic = s.cfgDemosaic := by
  obtain ⟨_, _, _, _, h, -⟩ := s.linkRead_spec r; rw [h]; rfl
@[simp] theorem State.linkRead_cfgAcc (s : State) (r : Nat) : (s.linkRead r).2.cfgAcc = s.cfgAcc := by
  obtain ⟨_, _, _, _, h, -⟩ := s.linkRead_spec r; rw [h]; rfl
@[simp] theorem State.linkRead_accExpected (s : State) (r : Nat) : (s.linkRead r).2.accExpected = s.accExpected := by
  obtain ⟨_, _, _, _, h, -⟩ := s.linkRead_spec r; rw [h]; rfl
@[simp] theorem State.linkRead_accCount (s : State) (r : Nat) : (s.linkRead r).2.accCount = s.accCount := by
  obtain ⟨_, _, _, _, h, -⟩ := s.linkRead_spec r; rw [h]; rfl
@[simp] theorem State.linkRead_accAttempts (s : State) (r : Nat) : (s.linkRead r).2.accAttempts = s.accAttempts := by
  obtain ⟨_, _, _, _, h, -⟩ := s.linkRead_spec r; rw [h]; rfl
@[simp] theorem State.linkRead_frameLen (s : State) (r : Nat) : (s.linkRead r).2.frameLen = s.frameLen := by
  obtain ⟨_, _, _, _, h, -⟩ := s.linkRead_spec r; rw [h]; rfl
@[simp] theorem State.linkRead_hdr (s : State) (r : Nat) : (s.linkRead r).2.hdr = s.hdr := by
  obtain ⟨_, _, _, _, h, -⟩ := s.linkRead_spec r; rw [h]; rfl
@[simp] theorem State.linkRead_req (s : State) (r : Nat) : (s.linkRead r).2.req = s.req := by
  obtain ⟨_, _, _, _, h, -⟩ := s.linkRead_spec r; rw [h]; rfl
@[simp] theorem State.linkRead_errInfo0 (s : State) (r : Nat) : (s.linkRead r).2.errInfo0 = s.errInfo0 := by
  obtain ⟨_, _, _, _, h, -⟩ := s.linkRead_spec r; rw [h]; rfl
@[simp] theorem State.linkRead_errInfo1 (s : State) (r : Nat) : (s.linkRead r).2.errInfo1 = s.errInfo1 := by
  obtain ⟨_, _, _, _, h, -⟩ := s.linkRead_spec r; rw [h]; rfl
@[simp] theorem State.linkRead_outDim (s : State) (r : Nat) : (s.linkRead r).2.outDim = s.outDim := by
  obtain ⟨_, _, _, _, h, -⟩ := s.linkRead_spec r; rw [h]; rfl
@[simp] theorem State.linkRead_mosaic (s : State) (r : Nat) : (s.linkRead r).2.mosaic = s.mosaic := by
  obtain ⟨_, _, _, _, h, -⟩ := s.linkRead_spec r; rw [h]; rfl
@[simp] theorem State.linkRead_rgb (s : State) (r : Nat) : (s.linkRead r).2.rgb = s.rgb := by
  obtain ⟨_, _, _, _, h, -⟩ := s.linkRead_spec r; rw [h]; rfl
@[simp] theorem State.linkRead_frame (s : State) (r : Nat) : (s.linkRead r).2.frame = s.frame := by
  obtain ⟨_, _, _, _, h, -⟩ := s.linkRead_spec r; rw [h]; rfl
@[simp] theorem State.linkRead_curOp (s : State) (r : Nat) : (s.linkRead r).2.curOp = s.curOp := by
  obtain ⟨_, _, _, _, h, -⟩ := s.linkRead_spec r; rw [h]; rfl
@[simp] theorem State.linkRead_capPhase (s : State) (r : Nat) : (s.linkRead r).2.capPhase = s.capPhase := by
  obtain ⟨_, _, _, _, h, -⟩ := s.linkRead_spec r; rw [h]; rfl
@[simp] theorem State.linkRead_openedHere (s : State) (r : Nat) : (s.linkRead r).2.openedHere = s.openedHere := by
  obtain ⟨_, _, _, _, h, -⟩ := s.linkRead_spec r; rw [h]; rfl
@[simp] theorem State.linkRead_accMax (s : State) (r : Nat) : (s.linkRead r).2.accMax = s.accMax := by
  obtain ⟨_, _, _, _, h, -⟩ := s.linkRead_spec r; rw [h]; rfl
@[simp] theorem State.linkRead_accHdrPending (s : State) (r : Nat) : (s.linkRead r).2.accHdrPending = s.accHdrPending := by
  obtain ⟨_, _, _, _, h, -⟩ := s.linkRead_spec r; rw [h]; rfl
@[simp] theorem State.linkRead_accStarted (s : State) (r : Nat) : (s.linkRead r).2.accStarted = s.accStarted := by
  obtain ⟨_, _, _, _, h, -⟩ := s.linkRead_spec r; rw [h]; rfl
@[simp] theorem State.linkRead_hostReply (s : State) (r : Nat) : (s.linkRead r).2.hostReply = s.hostReply := by
  obtain ⟨_, _, _, _, h, -⟩ := s.linkRead_spec r; rw [h]; rfl
@[simp] theorem State.linkRead_encoded (s : State) (r : Nat) : (s.linkRead r).2.encoded = s.encoded := by
  obtain ⟨_, _, _, _, h, -⟩ := s.linkRead_spec r; rw [h]; rfl
@[simp] theorem State.linkRead_linkLog (s : State) (r : Nat) : (s.linkRead r).2.linkLog = s.linkLog ++ [.linkRead r] := by
  obtain ⟨_, _, _, _, h, -⟩ := s.linkRead_spec r; rw [h]; rfl
@[simp] theorem State.linkRead_linkAcks (s : State) (r : Nat) : (s.linkRead r).2.linkAcks = s.linkAcks := by
  obtain ⟨_, _, _, _, h, -⟩ := s.linkRead_spec r; rw [h]; rfl
@[simp] theorem State.linkRead_schedule (s : State) (r : Nat) : (s.linkRead r).2.schedule = s.schedule := by
  obtain ⟨_, _, _, _, h, -⟩ := s.linkRead_spec r; rw [h]; rfl
@[simp] theorem State.linkRead_turn (s : State) (r : Nat) : (s.linkRead r).2.turn = s.turn := by
  obtain ⟨_, _, _, _, h, -⟩ := s.linkRead_spec r; rw [h]; rfl

/-! ### `State.sendBytes` -/

/-- All that sending the request can do: the write is refused and no flush is issued, or both are issued
(40_link_request.md R106). -/
theorem State.sendBytes_spec (s : State) :
    let s1 := s.runEncoder (s8 s.req.opcode) (s8 s.req.param)
    ((s1.linkAck (.linkWrite s1.encoded)).1 = false ∧ s.sendBytes = (false, (s1.linkAck (.linkWrite s1.encoded)).2)) ∨
      ((s1.linkAck (.linkWrite s1.encoded)).1 = true ∧
        s.sendBytes = (s1.linkAck (.linkWrite s1.encoded)).2.linkAck .linkFlush) := by
  unfold State.sendBytes
  dsimp only
  generalize (s.runEncoder (s8 s.req.opcode) (s8 s.req.param)).linkAck
    (.linkWrite (s.runEncoder (s8 s.req.opcode) (s8 s.req.param)).encoded) = answer
  obtain ⟨b, s2⟩ := answer
  cases b
  · exact .inl ⟨rfl, rfl⟩
  · exact .inr ⟨rfl, rfl⟩

@[simp] theorem State.sendBytes_status (s : State) : s.sendBytes.2.status = s.status := by
  rcases s.sendBytes_spec with ⟨-, h⟩ | ⟨-, h⟩ <;> rw [h] <;> simp
@[simp] theorem State.sendBytes_cfgDim (s : State) : s.sendBytes.2.cfgDim = s.cfgDim := by
  rcases s.sendBytes_spec with ⟨-, h⟩ | ⟨-, h⟩ <;> rw [h] <;> simp
@[simp] theorem State.sendBytes_cfgDemosaic (s : State) : s.sendBytes.2.cfgDemosaic = s.cfgDemosaic := by
  rcases s.sendBytes_spec with ⟨-, h⟩ | ⟨-, h⟩ <;> rw [h] <;> simp
@[simp] theorem State.sendBytes_cfgAcc (s : State) : s.sendBytes.2.cfgAcc = s.cfgAcc := by
  rcases s.sendBytes_spec with ⟨-, h⟩ | ⟨-, h⟩ <;> rw [h] <;> simp
@[simp] theorem State.sendBytes_accExpected (s : State) : s.sendBytes.2.accExpected = s.accExpected := by
  rcases s.sendBytes_spec with ⟨-, h⟩ | ⟨-, h⟩ <;> rw [h] <;> simp
@[simp] theorem State.sendBytes_accCount (s : State) : s.sendBytes.2.accCount = s.accCount := by
  rcases s.sendBytes_spec with ⟨-, h⟩ | ⟨-, h⟩ <;> rw [h] <;> simp
@[simp] theorem State.sendBytes_accAttempts (s : State) : s.sendBytes.2.accAttempts = s.accAttempts := by
  rcases s.sendBytes_spec with ⟨-, h⟩ | ⟨-, h⟩ <;> rw [h] <;> simp
@[simp] theorem State.sendBytes_frameLen (s : State) : s.sendBytes.2.frameLen = s.frameLen := by
  rcases s.sendBytes_spec with ⟨-, h⟩ | ⟨-, h⟩ <;> rw [h] <;> simp
@[simp] theorem State.sendBytes_hdr (s : State) : s.sendBytes.2.hdr = s.hdr := by
  rcases s.sendBytes_spec with ⟨-, h⟩ | ⟨-, h⟩ <;> rw [h] <;> simp
@[simp] theorem State.sendBytes_req (s : State) : s.sendBytes.2.req = s.req := by
  rcases s.sendBytes_spec with ⟨-, h⟩ | ⟨-, h⟩ <;> rw [h] <;> simp
@[simp] theorem State.sendBytes_errInfo0 (s : State) : s.sendBytes.2.errInfo0 = s.errInfo0 := by
  rcases s.sendBytes_spec with ⟨-, h⟩ | ⟨-, h⟩ <;> rw [h] <;> simp
@[simp] theorem State.sendBytes_errInfo1 (s : State) : s.sendBytes.2.errInfo1 = s.errInfo1 := by
  rcases s.sendBytes_spec with ⟨-, h⟩ | ⟨-, h⟩ <;> rw [h] <;> simp
@[simp] theorem State.sendBytes_outDim (s : State) : s.sendBytes.2.outDim = s.outDim := by
  rcases s.sendBytes_spec with ⟨-, h⟩ | ⟨-, h⟩ <;> rw [h] <;> simp
@[simp] theorem State.sendBytes_mosaic (s : State) : s.sendBytes.2.mosaic = s.mosaic := by
  rcases s.sendBytes_spec with ⟨-, h⟩ | ⟨-, h⟩ <;> rw [h] <;> simp
@[simp] theorem State.sendBytes_rgb (s : State) : s.sendBytes.2.rgb = s.rgb := by
  rcases s.sendBytes_spec with ⟨-, h⟩ | ⟨-, h⟩ <;> rw [h] <;> simp
@[simp] theorem State.sendBytes_frame (s : State) : s.sendBytes.2.frame = s.frame := by
  rcases s.sendBytes_spec with ⟨-, h⟩ | ⟨-, h⟩ <;> rw [h] <;> simp
@[simp] theorem State.sendBytes_curOp (s : State) : s.sendBytes.2.curOp = s.curOp := by
  rcases s.sendBytes_spec with ⟨-, h⟩ | ⟨-, h⟩ <;> rw [h] <;> simp
@[simp] theorem State.sendBytes_capPhase (s : State) : s.sendBytes.2.capPhase = s.capPhase := by
  rcases s.sendBytes_spec with ⟨-, h⟩ | ⟨-, h⟩ <;> rw [h] <;> simp
@[simp] theorem State.sendBytes_openedHere (s : State) : s.sendBytes.2.openedHere = s.openedHere := by
  rcases s.sendBytes_spec with ⟨-, h⟩ | ⟨-, h⟩ <;> rw [h] <;> simp
@[simp] theorem State.sendBytes_accMax (s : State) : s.sendBytes.2.accMax = s.accMax := by
  rcases s.sendBytes_spec with ⟨-, h⟩ | ⟨-, h⟩ <;> rw [h] <;> simp
@[simp] theorem State.sendBytes_accHdrPending (s : State) : s.sendBytes.2.accHdrPending = s.accHdrPending := by
  rcases s.sendBytes_spec with ⟨-, h⟩ | ⟨-, h⟩ <;> rw [h] <;> simp
@[simp] theorem State.sendBytes_accStarted (s : State) : s.sendBytes.2.accStarted = s.accStarted := by
  rcases s.sendBytes_spec with ⟨-, h⟩ | ⟨-, h⟩ <;> rw [h] <;> simp
@[simp] theorem State.sendBytes_hostReply (s : State) : s.sendBytes.2.hostReply = s.hostReply := by
  rcases s.sendBytes_spec with ⟨-, h⟩ | ⟨-, h⟩ <;> rw [h] <;> simp
@[simp] theorem State.sendBytes_linkRx (s : State) : s.sendBytes.2.linkRx = s.linkRx := by
  rcases s.sendBytes_spec with ⟨-, h⟩ | ⟨-, h⟩ <;> rw [h] <;> simp
@[simp] theorem State.sendBytes_linkQueue (s : State) : s.sendBytes.2.linkQueue = s.linkQueue := by
  rcases s.sendBytes_spec with ⟨-, h⟩ | ⟨-, h⟩ <;> rw [h] <;> simp
@[simp] theorem State.sendBytes_schedule (s : State) : s.sendBytes.2.schedule = s.schedule := by
  rcases s.sendBytes_spec with ⟨-, h⟩ | ⟨-, h⟩ <;> rw [h] <;> simp
@[simp] theorem State.sendBytes_turn (s : State) : s.sendBytes.2.turn = s.turn := by
  rcases s.sendBytes_spec with ⟨-, h⟩ | ⟨-, h⟩ <;> rw [h] <;> simp

/-! ### The signed bytes of a request -/

/-- A request byte read as signed and encoded again is the byte (40_link_request.md R105). -/
@[simp] theorem u8_s8 (b : Byte) : u8 (s8 b) = b := by
  revert b
  decide

/-- A signed 8-bit value encoded and read again is the value (00_scope.md R8). -/
theorem s8_u8 {v : Int} (low : -128 ≤ v) (high : v ≤ 127) : s8 (u8 v) = v := by
  have h : (u8 v).toNat = (v % 256).toNat := by
    simp only [u8, BitVec.toNat_ofNat]
    omega
  unfold s8
  rw [h]
  split <;> omega

@[simp] theorem encodeRequest_s8 (opcode param : Byte) : encodeRequest (s8 opcode) (s8 param) = [opcode, param] := by
  simp [encodeRequest]

end Sys2Proof.Machine
end

