-- ==== Sys2Proof/Laws/Commands.lean ====
section
/-! SUPPORT. What each shared operation of the commands can do, said once, and the dispatch of each instruction. -/

namespace Sys2Proof.Machine

open Sys2Proof

/-! ### Dispatch -/

@[simp] theorem exec_nop (s : State) : exec .nop s = .next (s.regWrite 0 0x00000000) := rfl
@[simp] theorem exec_abort (s : State) : exec .abort s = .next (s.regWrite 0 0x00000009) := rfl
@[simp] theorem exec_demosaic (s : State) :
    exec .demosaic s = .next (s.asCommand 0x00000001 State.demosaicStage) := rfl
@[simp] theorem exec_parse (s : State) : exec .parse s = .next (s.asCommand 0x00000002 State.parseStage) := rfl
@[simp] theorem exec_accumulate (s : State) :
    exec .accumulate s = .next (s.asCommand 0x00000003 State.accumulateStage) := rfl
@[simp] theorem exec_sendRequest (s : State) :
    exec .sendRequest s = .next (s.asCommand 0x00000004 State.sendRequestStage) := rfl
@[simp] theorem exec_linkReset (s : State) :
    exec .linkReset s = .next (s.asCommand 0x00000005 State.linkResetStage) := rfl
@[simp] theorem exec_capture (s : State) : exec .capture s = .next (s.asCommand 0x00000006 State.captureStage) := rfl
@[simp] theorem exec_linkOpen (s : State) : exec .linkOpen s = .next (s.asCommand 0x00000007 State.linkOpenStage) := rfl
@[simp] theorem exec_linkClose (s : State) :
    exec .linkClose s = .next (s.asCommand 0x00000008 State.linkCloseStage) := rfl
@[simp] theorem exec_rr (s : State) (index : BitVec 4) :
    exec (.rr index) s = .next { s with hostReply := s.regRead index } := rfl
@[simp] theorem exec_rw (s : State) (index : BitVec 4) (data : Word) :
    exec (.rw index data) s = .next (s.regWrite index data) := rfl
@[simp] theorem exec_mr (s : State) (space : Space) (addr : BitVec 18) :
    exec (.mr space addr) s = .next (s.memRead space addr.toNat) := rfl
@[simp] theorem exec_mw (s : State) (space : Space) (addr : BitVec 18) (data : Byte) :
    exec (.mw space addr data) s = .next (s.memWrite space addr.toNat data) := rfl
@[simp] theorem exec_request (s : State) (opcode param : Byte) :
    exec (.request opcode param) s = .next (s.runEncoder (s8 opcode) (s8 param)) := rfl
@[simp] theorem exec_response (s : State) (mode width height : Byte) (mosaic : List Byte) :
    exec (.response mode width height mosaic) s = .next (s.lineUp (mode :: width :: height :: mosaic)) := rfl

/-- A command at the engine's event is its stage. -/
theorem State.asCommand_engine {s : State} (h : s.turn = .engine) (v : Word) (stage : State → State) :
    s.asCommand v stage = stage s := by
  simp [State.asCommand, h]

/-- A command at any other event is the write of its word. -/
theorem State.asCommand_write {s : State} (h : s.turn ≠ .engine) (v : Word) (stage : State → State) :
    s.asCommand v stage = s.regWrite 0 v := by
  simp [State.asCommand, h]

/-! ### The end of a CAPTURE -/

/-- All that the capture clean-up does. -/
theorem State.captureCleanUp_spec (s : State) :
    s.captureCleanUp =
      { s with
        status := { s.status with linkOpen := if s.openedHere then false else s.status.linkOpen }
        linkLog := if s.openedHere then s.linkLog ++ [.linkClose] else s.linkLog
        openedHere := false } := by
  unfold State.captureCleanUp
  split <;> rename_i h
  · simp [h, State.closeLink, State.issueLink]
  · simp only [Bool.not_eq_true] at h
    rcases s with ⟨⟨⟩⟩
    simp_all

/-! ### Issue and register writes -/

/-- All that a write to `CMD` while idle can do. -/
theorem State.issue_spec (s : State) (v : Word) :
    (decodeCommand v = none ∧ s.issue v = (s.bookkeep v).finish .illegalCommand v 0) ∨
      (decodeCommand v = some .abort ∧ s.issue v = s) ∨
      (decodeCommand v = some .nop ∧ s.issue v = (s.bookkeep v).finishOk) ∨
      (decodeCommand v = some .capture ∧ s.issue v = ((s.bookkeep v).accept v).startCapture) ∨
      (∃ i, decodeCommand v = some i ∧ i ≠ .abort ∧ i ≠ .nop ∧ i ≠ .capture ∧
        s.issue v = (s.bookkeep v).accept v) := by
  unfold State.issue
  split
  · exact .inl ⟨‹_›, rfl⟩
  · exact .inr (.inl ⟨‹_›, rfl⟩)
  · exact .inr (.inr (.inl ⟨‹_›, rfl⟩))
  · exact .inr (.inr (.inr (.inl ⟨‹_›, rfl⟩)))
  · rename_i i h1 h2 h3 h4
    exact .inr (.inr (.inr (.inr ⟨i, h4, by rintro rfl; exact h1 rfl, by rintro rfl; exact h2 rfl,
      by rintro rfl; exact h3 rfl, rfl⟩)))

/-- A register write while busy: ABORT, or dropped. -/
theorem State.regWrite_busy {s : State} (h : s.status.busy = true) (index : BitVec 4) (v : Word) :
    s.regWrite index v = if index = 0 ∧ v = 0x00000009 then s.abortRunning else s.dropWrite := by
  simp [State.regWrite, h]

/-- A register write while idle: a command issue, or the fields of a register. -/
theorem State.regWrite_idle {s : State} (h : s.status.busy = false) (index : BitVec 4) (v : Word) :
    s.regWrite index v = if index = 0 then s.issue v else s.setRegister index v := by
  simp [State.regWrite, h]

/-- All that the write of a register's fields can change. -/
theorem State.setRegister_spec (s : State) (index : BitVec 4) (v : Word) :
    s.setRegister index v =
      { s with
        cfgDim := (s.setRegister index v).cfgDim
        cfgDemosaic := (s.setRegister index v).cfgDemosaic
        cfgAcc := (s.setRegister index v).cfgAcc
        accExpected := (s.setRegister index v).accExpected
        req := (s.setRegister index v).req } := by
  unfold State.setRegister
  split <;> rfl

/-! ### Host byte accesses -/

/-- All that a host byte read can change. -/
theorem State.memRead_spec (s : State) (space : Space) (addr : Nat) :
    ∃ reply k, s.memRead space addr = { s with hostReply := reply, draws := k } := by
  unfold State.memRead
  split
  · exact ⟨0, s.draws, rfl⟩
  · split
    · exact ⟨_, _, rfl⟩
    · exact ⟨_, s.draws, rfl⟩

/-- All that a host byte write can do. -/
theorem State.memWrite_spec (s : State) (space : Space) (addr : Nat) (v : Byte) :
    (s.status.busy = true ∧ s.memWrite space addr v = s.dropWrite) ∨
      (s.status.busy = false ∧ spaceSize space ≤ addr ∧ s.memWrite space addr v = s) ∨
      (s.status.busy = false ∧ addr < spaceSize space ∧ s.memWrite space addr v = s.poke space addr [v]) := by
  unfold State.memWrite
  cases hb : s.status.busy
  · by_cases h : spaceSize space ≤ addr
    · simp [h]
    · simp [h, Nat.lt_of_not_le h]
  · simp

/-! ### The accumulator -/

/-- All that a read step can do, up to the header hook: the read is counted, and what it brought is appended. -/
theorem State.readStep_spec (s : State) :
    ((s.linkRead s.missing).1 = none ∧ s.readStep = (false, (s.linkRead s.missing).2.countRead)) ∨
      ∃ chunk, (s.linkRead s.missing).1 = some chunk ∧ chunk.length ≤ s.missing ∧
        s.readStep = (true, (s.linkRead s.missing).2.countRead.receive chunk) := by
  obtain ⟨answer, rx, queue, k, h, given⟩ := s.linkRead_spec s.missing
  unfold State.readStep
  rw [h]
  cases answer with
  | none => exact .inl ⟨rfl, rfl⟩
  | some chunk => exact .inr ⟨chunk, rfl, given chunk rfl, rfl⟩

/-- All that the header hook can change. -/
theorem State.headerHook_spec (s : State) :
    s.headerHook =
      { s with
        accHdrPending := s.headerHook.accHdrPending
        accExpected := s.headerHook.accExpected } := by
  unfold State.headerHook
  split <;> rfl

/-- All that the policy's window can change. -/
theorem State.openWindow_spec (s : State) :
    s.openWindow =
      { s with accHdrPending := s.openWindow.accHdrPending, accExpected := s.openWindow.accExpected } := by
  unfold State.openWindow
  split <;> rfl

/-! ### The parser and the demosaic unit -/

/-- All that PARSE can do before its exit (42_parse.md R147). -/
theorem State.parseFrame_spec (s : State) :
    (s.frameLen.toNat < 3 ∧ s.parseFrame = (some (s.frameLen, 3), { s with hdr := { s.hdr with valid := false } })) ∨
      (3 ≤ s.frameLen.toNat ∧
        ∃ n, n = (s.peek .frame 1).toNat * (s.peek .frame 2).toNat ∧ n ≤ Config.mosaicCap ∧
          ∃ hdr : Hdr, hdr = ⟨s.peek .frame 0, s.peek .frame 1, s.peek .frame 2, false⟩ ∧
            ((s.frameLen.toNat - 3 ≠ n ∧
                s.parseFrame = (some (s.frameLen, BitVec.ofNat 32 (3 + n)), { s with hdr := hdr })) ∨
              (s.frameLen.toNat - 3 = n ∧
                s.parseFrame =
                  (none,
                    { s.poke .mosaic 0 (s.peekBlock .frame 3 n) with hdr := { hdr with valid := true } })))) := by
  unfold State.parseFrame
  by_cases h : s.frameLen.toNat < 3
  · exact .inl ⟨h, by simp [h]⟩
  · refine .inr ⟨by omega, _, rfl, ?_, _, rfl, ?_⟩
    · have h1 : (s.peek .frame 1).toNat ≤ 255 := by have := (s.peek .frame 1).isLt; omega
      have h2 : (s.peek .frame 2).toNat ≤ 255 := by have := (s.peek .frame 2).isLt; omega
      exact le_trans (Nat.mul_le_mul h1 h2) (by decide)
    · by_cases h3 : s.frameLen.toNat - 3 = (s.peek .frame 1).toNat * (s.peek .frame 2).toNat
      · exact .inr ⟨h3, by simp [h, h3]⟩
      · exact .inl ⟨h3, by simp [h, h3]⟩

@[simp] theorem DemosaicArgs.image_length (a : DemosaicArgs) (mosaic : Nat → Byte) :
    (a.image mosaic).length = 3 * (a.width * a.height) := by
  simp [DemosaicArgs.image]

/-- One byte of the image. -/
theorem DemosaicArgs.image_getElem (a : DemosaicArgs) (mosaic : Nat → Byte) (n : Nat)
    (h : n < (a.image mosaic).length) :
    (a.image mosaic)[n] = a.q mosaic (n / 3 % a.width) (n / 3 / a.width) (channelOfIndex (n % 3)) := by
  simp [DemosaicArgs.image]

/-- All that the demosaic unit can do before the command's exit. -/
theorem State.demosaicInto_spec (s : State) (dim : Dim) :
    (layoutOfPattern s.cfgDemosaic.pattern = none ∧ s.demosaicInto dim = none) ∨
      ∃ layout, layoutOfPattern s.cfgDemosaic.pattern = some layout ∧
        ∃ image : List Byte, image.length = 3 * (dim.width.toNat * dim.height.toNat) ∧
          image =
            DemosaicArgs.image
              ⟨layout, s.cfgDemosaic.border, s.cfgDemosaic.rounding, dim.width.toNat, dim.height.toNat⟩
              (s.peek .mosaic) ∧
          s.demosaicInto dim = some { s.poke .rgb 0 image with outDim := dim } := by
  unfold State.demosaicInto
  cases h : layoutOfPattern s.cfgDemosaic.pattern with
  | none => exact .inl ⟨rfl, rfl⟩
  | some layout => exact .inr ⟨layout, rfl, _, by simp, rfl, rfl⟩

/-! ### Steps -/

/-- All that a step can be: the engine's turn (its stage, no enabled step, or no stage), a reset, or a packet. -/
theorem step_spec (s : State) :
    (∃ rest, (s.schedule = [] ∧ rest = [] ∨ s.schedule = .engine :: rest) ∧
        ((s.status.busy = false ∧ step s = .next { s with schedule := rest }) ∨
          (s.status.busy = true ∧ ∃ i, engineInstr s.curOp = some i ∧
            step s = exec i { s with schedule := rest, turn := .engine }) ∨
          (s.status.busy = true ∧ engineInstr s.curOp = none ∧ step s = .fault .noStage))) ∨
      (∃ rest, s.schedule = .reset :: rest ∧ step s = .next (State.platformReset { s with schedule := rest })) ∨
      (∃ p rest, s.schedule = .packet p :: rest ∧ step s = runPacket p { s with schedule := rest }) := by
  unfold step runNext
  have engineTurn : ∀ t : State, t.status.busy = false ∧ runEngine t = .next t ∨
      t.status.busy = true ∧ (∃ i, engineInstr t.curOp = some i ∧ runEngine t = exec i { t with turn := .engine }) ∨
      t.status.busy = true ∧ engineInstr t.curOp = none ∧ runEngine t = .fault .noStage := by
    intro t
    unfold runEngine
    cases hb : t.status.busy
    · simp
    · cases hi : engineInstr t.curOp <;> simp
  split
  · rename_i h
    have hs : runEngine s = runEngine { s with schedule := [] } := by rw [← h]
    rw [hs]
    exact .inl ⟨[], .inl ⟨h, rfl⟩, engineTurn { s with schedule := [] }⟩
  · rename_i rest h
    exact .inl ⟨rest, .inr h, engineTurn { s with schedule := rest }⟩
  · rename_i rest h
    exact .inr (.inl ⟨rest, h, rfl⟩)
  · rename_i p rest h
    exact .inr (.inr ⟨p, rest, h, rfl⟩)

end Sys2Proof.Machine
end

