-- ==== Sys2Proof/Laws/PerInstr.lean ====
section
/-! SUPPORT. What holds of each instruction as syntax, one lemma per constructor: its encoding travels in the format of
its row and is as long as that format says (30_encoding.md R80, R81, R84, R86, R87). -/

namespace Sys2Proof.Laws.EncodedLength

open Sys2Proof

/-- How many bytes a packet is (30_encoding.md R80). -/
def packetBytes : Packet → Nat
  | .cmd _ => 4
  | .host _ => 8
  | .req16 _ => 2
  | .resp bytes => bytes.length

/-- How many bytes the encoding of an instruction is, by the format of its row. -/
def rowBytes : Instr → Nat
  | .nop => 4
  | .demosaic => 4
  | .parse => 4
  | .accumulate => 4
  | .sendRequest => 4
  | .linkReset => 4
  | .capture => 4
  | .linkOpen => 4
  | .linkClose => 4
  | .abort => 4
  | .rr _ => 8
  | .rw _ _ => 8
  | .mr _ _ => 8
  | .mw _ _ _ => 8
  | .request _ _ => 2
  | .response _ width height _ => 3 + width.toNat * height.toNat

/-- A well-formed instruction is as long as its format says. -/
def Statement (i : Instr) : Prop := i.wellFormed = true → packetBytes (encode i) = rowBytes i

theorem nop : Statement .nop := fun _ => rfl
theorem demosaic : Statement .demosaic := fun _ => rfl
theorem parse : Statement .parse := fun _ => rfl
theorem accumulate : Statement .accumulate := fun _ => rfl
theorem sendRequest : Statement .sendRequest := fun _ => rfl
theorem linkReset : Statement .linkReset := fun _ => rfl
theorem capture : Statement .capture := fun _ => rfl
theorem linkOpen : Statement .linkOpen := fun _ => rfl
theorem linkClose : Statement .linkClose := fun _ => rfl
theorem abort : Statement .abort := fun _ => rfl
theorem rr (index : BitVec 4) : Statement (.rr index) := fun _ => rfl
theorem rw (index : BitVec 4) (data : Word) : Statement (.rw index data) := fun _ => rfl
theorem mr (space : Space) (addr : BitVec 18) : Statement (.mr space addr) := fun _ => rfl
theorem mw (space : Space) (addr : BitVec 18) (data : Byte) : Statement (.mw space addr data) := fun _ => rfl
theorem request (opcode param : Byte) : Statement (.request opcode param) := fun _ => rfl
theorem response (mode width height : Byte) (mosaic : List Byte) :
    Statement (.response mode width height mosaic) := by
  intro h
  simp only [Instr.wellFormed, beq_iff_eq] at h
  simp only [encode, packetBytes, rowBytes, List.length_cons, h]
  omega

end Sys2Proof.Laws.EncodedLength
end

