-- ==== Sys2Proof/Tests/Slice0.lean ====
section
/-! SUPPORT. Tests of the model: expected values are those of spec/95_test_vectors.md (the vector's number stands in
each docstring) or of the rule named. The witnesses at the end show, for each statement with hypotheses, states and
operands that meet them. -/

namespace Sys2Proof.Tests

open Sys2Proof Sys2Proof.Machine Sys2Proof.Safety

/-! ### States to test on -/

/-- The reset state with RGGB, MIRROR, HALF_UP written to `CFG_DEMOSAIC`, whose reset value is open. -/
def idle : State :=
  { State.reset with cfgDemosaic := { pattern := 0, border := .mirror, rounding := .halfUp } }

/-- A command that was accepted, at the engine's event. -/
def running (op : Byte) : State :=
  { idle with status := { idle.status with busy := true, lastOp := op }, curOp := op, turn := .engine }

/-- The link open. -/
def linked (s : State) : State := { s with status := { s.status with linkOpen := true } }

/-- `FRAME` holding these bytes from offset 0 on. -/
def framed (s : State) (bytes : List Byte) : State :=
  { s.poke .frame 0 bytes with frameLen := BitVec.ofNat 32 bytes.length }

/-- What the next state of an outcome shows. -/
def shown {α : Type} (outcome : Host.Outcome State Fault Refusal) (view : State → α) : Option α :=
  match outcome with
  | .next s => some (view s)
  | .fault _ => none
  | .refused _ => none

/-- `STATUS` and the two diagnostic words. -/
def record (s : State) : Word × Word × Word := (s.regRead 1, s.regRead 11, s.regRead 12)

/-! ### Well-formedness -/

/-- A response that is one sample short is no instruction (30_encoding.md R87). -/
theorem test_wellFormed_refuses_short_response : (Instr.response 1 4 2 [1, 2, 3, 4, 5, 6, 7]).wellFormed = false := by
  decide

/-- A response with a sample too many is no instruction (30_encoding.md R87). -/
theorem test_wellFormed_refuses_long_response : (Instr.response 0 1 1 [1, 2]).wellFormed = false := by decide

/-- A response of exactly its declared length is one. -/
theorem test_wellFormed_accepts_response : (Instr.response 0 0 5 []).wellFormed = true := by decide

/-! ### Decoding: words written out from the spec -/

/-- T1.1. -/
theorem test_decode_commands :
    [0x00000000, 0x00000001, 0x00000002, 0x00000003, 0x00000004, 0x00000005, 0x00000006, 0x00000007, 0x00000008,
        0x00000009].map decodeCommand =
      [some .nop, some .demosaic, some .parse, some .accumulate, some .sendRequest, some .linkReset, some .capture,
        some .linkOpen, some .linkClose, some .abort] := by
  decide

/-- T1.1, the illegal words. -/
theorem test_decode_refuses_illegal_commands :
    [0x0000000A, 0x000000FF, 0x00000106, 0x80000001, 0x00000109].map decodeCommand =
      [none, none, none, none, none] := by
  decide

/-- T1.2. -/
theorem test_decode_rr : decodeHost 0x0000000D00000000 = some (.rr 13) := by decide

/-- T1.2. -/
theorem test_decode_rw : decodeHost 0x400000040001000A = some (.rw 4 0x0001000A) := by decide

/-- T1.2: one past the end of `RGB`, an address that decodes. -/
theorem test_decode_mr : decodeHost 0x9002FA0300000000 = some (.mr .rgb 195075) := by decide

/-- T1.2: the last byte of `FRAME`. -/
theorem test_decode_mw : decodeHost 0xE000FE03000000FF = some (.mw .frame 65027 0xFF) := by decide

/-- T1.3. -/
theorem test_decode_refuses_malformed_descriptors :
    [0xB000000000000000, 0x1000000100000000, 0x0000001000000000, 0x0000000100000001, 0xC000000000000100,
        0x8004000000000000].map decodeHost =
      [none, none, none, none, none, none] := by
  decide

/-- T1.4, S1. -/
theorem test_decode_request : decode (.req16 0xB700) = .ok (.request 0xB7 0x00) := by decide

/-- R87: a 1 by 1 response. -/
theorem test_decode_response : decode (.resp [0, 1, 1, 77]) = .ok (.response 0 1 1 [77]) := by decide

/-- R87: a header alone declares samples that are missing. -/
theorem test_decode_refuses_short_response :
    decode (.resp [1, 4, 2]) = .error (.malformedResponse [1, 4, 2]) := by
  decide

/-- The opcode table's rows as the host numbers them. -/
theorem test_decodeTableWord :
    decodeTableWord 32 6 = some .capture ∧ decodeTableWord 64 0x4000000200000204 = some (.rw 2 0x204) ∧
      decodeTableWord 16 0xB700 = some (.request 0xB7 0) ∧ decodeTableWord 32 10 = none ∧
      decodeTableWord 24 0x000000 = some (.response 0 0 0 []) := by
  decide

/-! ### Commands -/

/-- T6.1, first row. -/
theorem test_nop_clears_the_record :
    shown (exec .nop (idle.finish .unsupportedPattern 4 0)) record = some (0x00000002, 0, 0) := by
  decide

/-- T5.1, RGGB under CLAMP and HALF_UP. -/
theorem test_demosaic_fixture :
    shown
        (exec .demosaic
          { (running 1).poke .mosaic 0 [10, 20, 30, 40, 50, 60, 70, 80] with
            cfgDim := { width := 4, height := 2 }
            cfgDemosaic := { pattern := 0, border := .clamp, rounding := .halfUp } })
        (fun s => (s.peekBlock .rgb 0 24, s.regRead 1, s.regRead 13)) =
      some
        ([10, 23, 35, 20, 20, 40, 30, 40, 50, 35, 40, 60, 30, 50, 55, 40, 50, 60, 50, 70, 70, 55, 68, 80],
          0x00000102, 0x00000204) := by
  decide

/-- T5.2, RGGB under MIRROR and TRUNC. -/
theorem test_demosaic_truncates :
    shown
        (exec .demosaic
          { (running 1).poke .mosaic 0 [1, 2, 3, 4] with
            cfgDim := { width := 2, height := 2 }
            cfgDemosaic := { pattern := 0, border := .mirror, rounding := .trunc } })
        (fun s => s.peekBlock .rgb 0 12) =
      some [1, 2, 4, 1, 2, 4, 1, 3, 4, 1, 2, 4] := by
  decide

/-- T4.1. -/
theorem test_parse_copies_the_payload :
    shown (exec .parse (framed (running 2) [1, 4, 2, 10, 20, 30, 40, 50, 60, 70, 80]))
        (fun s => (record s, s.regRead 9, s.peekBlock .mosaic 0 8)) =
      some ((0x00000202, 0, 0), 0x01020401, [10, 20, 30, 40, 50, 60, 70, 80]) := by
  decide

/-- T4.2. -/
theorem test_parse_rejects_a_short_payload :
    shown (exec .parse (framed (running 2) [1, 4, 2, 10, 20, 30, 40, 50, 60, 70]))
        (fun s => (record s, s.regRead 9, s.mosaic)) =
      some ((0x00000232, 10, 11), 0x00020401, []) := by
  decide

/-- T3.8: one byte more than `FRAME` has. -/
theorem test_accumulate_overflow :
    shown (exec .accumulate { linked (running 3) with accExpected := 65029 }) record =
      some (0x0000036A, 0xFE05, 0xFE04) := by
  decide

/-- The last read step of T3.1. -/
theorem test_accumulate_last_read :
    shown
        (exec .accumulate
          { linked (framed (running 3) [1, 2]) with
            accExpected := 5, accCount := 2, accAttempts := 2, accMax := 3, accStarted := true
            linkRx := [.chunk [3, 4, 5]] })
        (fun s => (s.regRead 1, [s.accCount, s.accAttempts, s.frameLen], s.peekBlock .frame 0 5, s.linkLog)) =
      some (0x0000030A, [5, 3, 5], [1, 2, 3, 4, 5], [.linkRead 3]) := by
  decide

/-- T2.9. -/
theorem test_sendRequest_bytes :
    shown (exec .sendRequest { linked (running 4) with linkAcks := [true, true] }) (fun s => (record s, s.linkLog)) =
      some ((0x0000040A, 0, 0), [.linkWrite [0xB7, 0x00], .linkFlush]) := by
  decide

/-- T2.11. -/
theorem test_sendRequest_write_fails :
    shown (exec .sendRequest { linked (running 4) with linkAcks := [false] }) (fun s => (record s, s.linkLog)) =
      some ((0x0000041A, 3, 0), [.linkWrite [0xB7, 0x00]]) := by
  decide

/-- T2.6. -/
theorem test_linkReset_empties_the_frame :
    shown (exec .linkReset { linked (running 5) with frameLen := 11, linkAcks := [true] })
        (fun s => (record s, s.frameLen)) =
      some ((0x0000050A, 0, 0), 0) := by
  decide

/-- R104, R122: bytes beyond the window stay queued, and the next LINK_RESET discards them, not what comes in later. -/
theorem test_linkReset_discards_stale_bytes :
    shown
        (exec .accumulate
          { linked (running 3) with accExpected := 1, accMax := 1, accStarted := true, linkRx := [.chunk [7, 8, 9]] })
        (fun s => (s.peekBlock .frame 0 1, s.linkQueue)) = some ([7], [8, 9]) ∧
      shown
        (exec .linkReset
          { linked (running 5) with linkQueue := [8, 9], linkAcks := [true], linkRx := [.chunk [1]] })
        (fun s => (s.linkQueue, s.linkRx)) = some ([], [.chunk [1]]) := by
  decide

/-- R100: the bytes of a read are any bytes, whatever is queued; with the link intact they are the stale ones first. -/
theorem test_read_with_bytes_queued :
    (({ idle with linkQueue := [8, 9], linkRx := [.altered [1, 2]] } : State).linkRead 1).1 = some [1] ∧
      (({ idle with linkQueue := [8, 9], linkRx := [.altered []] } : State).linkRead 1).1 = some [] ∧
      (({ idle with linkQueue := [8, 9], linkRx := [.chunk [1]] } : State).linkRead 3).1 = some [8, 9, 1] := by
  decide

/-- T2.8. -/
theorem test_linkReset_fails :
    shown (exec .linkReset { linked (running 5) with linkAcks := [false] }) record = some (0x0000051A, 2, 0) := by
  decide

/-- T6.3a. -/
theorem test_capture_rejects_the_pattern :
    shown (exec .capture { running 6 with cfgDemosaic := { pattern := 7, border := .mirror, rounding := .halfUp } })
        record =
      some (0x00090642, 7, 0) := by
  decide

/-- The last stage of T6.4. -/
theorem test_capture_last_stage :
    shown
        (exec .capture
          { (linked (running 6)).poke .mosaic 0 [77] with
            capPhase := .demosaic, hdr := { mode := 0, width := 1, height := 1, valid := true } })
        (fun s => (record s, s.peekBlock .rgb 0 3, s.regRead 13)) =
      some ((0x0004060A, 0, 0), [77, 77, 77], 0x00000101) := by
  decide

/-- T2.1. -/
theorem test_linkOpen_ok :
    shown (exec .linkOpen { running 7 with linkAcks := [true] }) record = some (0x0000070A, 0, 0) := by
  decide

/-- T2.3. -/
theorem test_linkOpen_fails :
    shown (exec .linkOpen { running 7 with linkAcks := [false] }) record = some (0x00000712, 1, 0) := by
  decide

/-- T2.4. -/
theorem test_linkClose_open : shown (exec .linkClose (linked (running 8))) (fun s => (record s, s.linkLog)) =
    some ((0x00000802, 0, 0), [.linkClose]) := by
  decide

/-- T2.5. -/
theorem test_linkClose_closed : shown (exec .linkClose (running 8)) (fun s => (record s, s.linkLog)) =
    some ((0x00000802, 0, 0), []) := by
  decide

/-- T6.2, ACCUMULATE. -/
theorem test_abort_accumulate :
    shown (exec .abort { linked (running 3) with accCount := 2, accExpected := 11 }) record =
      some (0x0000037A, 2, 11) := by
  decide

/-- T6.2, CAPTURE that opened the link. -/
theorem test_abort_capture :
    shown (exec .abort { linked (running 6) with accCount := 2, accExpected := 11, openedHere := true })
        (fun s => (record s, s.linkLog)) =
      some ((0x000A0672, 2, 11), [.linkClose]) := by
  decide

/-! ### The host port and the wire -/

/-- T7.2. -/
theorem test_rr_reset_values :
    [2, 4, 10, 1, 9, 13, 0, 14].map (fun index => shown (exec (.rr index) State.reset) (·.hostReply)) =
      [some 0x000078A0, some 0x00000064, some 0x000000B7, some 0, some 0, some 0, some 0, some 0] := by
  decide

/-- T1.4, last row: the reserved bits of `REQ` read 0. -/
theorem test_rw_drops_reserved_bits :
    shown (exec (.rw 10 0xFFFF0180) idle) (fun s => s.regRead 10) = some 0x00000180 := by
  decide

/-- T6.1, third row. -/
theorem test_rw_illegal_command :
    shown (exec (.rw 0 0x00000106) (idle.finish .unsupportedPattern 4 0)) record = some (0x00000652, 0x106, 0) := by
  decide

/-- T1.2: out of range reads 0x00, whatever was there to read. -/
theorem test_mr_out_of_range : shown (exec (.mr .rgb 195075) idle) (·.hostReply) = some 0 := by decide

/-- 20_memory.md R64. -/
theorem test_mr_reads_the_byte :
    shown (exec (.mr .mosaic 7) (idle.poke .mosaic 7 [80])) (·.hostReply) = some 80 := by
  decide

/-- T1.2: the last byte of `FRAME`. -/
theorem test_mw_last_byte : shown (exec (.mw .frame 65027 0xFF) idle) (·.frame) = some [(65027, 0xFF)] := by decide

/-- T1.2: out of range has no effect. -/
theorem test_mw_out_of_range : shown (exec (.mw .mosaic 65025 1) idle) (·.mosaic) = some [] := by decide

/-- T1.4, second row. -/
theorem test_request_bytes : shown (exec (.request 0x7F 0x80) idle) (·.encoded) = some [0x7F, 0x80] := by decide

/-- R87: the response is queued header first, behind what is queued already. -/
theorem test_response_is_lined_up :
    shown (exec (.response 0 1 1 [77]) { idle with linkQueue := [9] }) (·.linkQueue) = some [9, 0, 1, 1, 77] := by
  decide

/-! ### Steps -/

/-- The host's word as the first instruction after reset: `cmd CAPTURE` is accepted. -/
theorem test_first_step_runs_the_word :
    shown (step (State.reset.withFetchWord 32 6)) (fun s => (s.regRead 1, s.curOp)) = some (0x00000601, 6) := by
  decide

/-- 70_reset_and_hazards.md R261, R262: a reset keeps `FRAME` and closes the link. -/
theorem test_reset_closes_the_link :
    shown (step { linked (framed idle [5]) with schedule := [.reset] })
        (fun s => (s.regRead 1, s.peekBlock .frame 0 1, s.linkLog)) =
      some (0, [5], [.linkClose]) := by
  decide

/-- A malformed descriptor is refused, T1.3. -/
theorem test_step_refuses_malformed_descriptor :
    (match step { idle with schedule := [.packet (.host 0xB000000000000000)] } with
      | .refused r => some r
      | .next _ => none
      | .fault _ => none) = some .malformedDescriptor := by
  decide

/-! ### States that meet the invariant -/

/-- No byte of memory is defined. -/
theorem idle_memories : MemoriesWf idle := by unfold MemoriesWf; decide

/-- A PARSE accepted. -/
theorem witness_inv_parse : Inv (running 2) where
  neverPersisted := by decide
  memories := idle_memories
  frameLen := by decide
  attempts := by decide
  openedHere := by decide
  running := fun _ => ⟨by decide, by decide, by decide⟩
  otherSeq := by decide
  captureSeq := by decide
  capture := fun _ h => absurd h (by decide)
  window := fun h => absurd h.2 (by decide)

/-- An ACCUMULATE accepted, before its start step. -/
theorem witness_inv_accumulate : Inv (running 3) where
  neverPersisted := by decide
  memories := idle_memories
  frameLen := by decide
  attempts := by decide
  openedHere := by decide
  running := fun _ => ⟨by decide, by decide, by decide⟩
  otherSeq := by decide
  captureSeq := by decide
  capture := fun _ h => absurd h (by decide)
  window := fun h => absurd h.2 (by decide)

/-- A CAPTURE accepted. -/
theorem witness_inv_capture : Inv (running 6) where
  neverPersisted := by decide
  memories := idle_memories
  frameLen := by decide
  attempts := by decide
  openedHere := by decide
  running := fun _ => ⟨by decide, by decide, by decide⟩
  otherSeq := by decide
  captureSeq := by decide
  capture := fun _ _ => by show (running 6).openedHere = false; decide
  window := fun h => absurd h.2 (by decide)

/-- An ACCUMULATE with one byte missing and one read left. -/
def reading : State :=
  { linked (running 3) with accExpected := 1, accMax := 1, accStarted := true, linkRx := [.chunk [7]] }

theorem witness_inv_reading : Inv reading where
  neverPersisted := by decide
  memories := idle_memories
  frameLen := by decide
  attempts := by decide
  openedHere := by decide
  running := fun _ => ⟨by decide, by decide, by decide⟩
  otherSeq := by decide
  captureSeq := by decide
  capture := fun _ h => absurd h (by decide)
  window := fun _ => ⟨by decide, by decide, by decide, by decide⟩

/-- A CAPTURE that opened the link, in `ACC_READ`, with a read to come that the link fails. -/
def capturing : State :=
  { linked (running 6) with
    status := { (linked (running 6)).status with seqState := .accumulating }
    capPhase := .accRead, openedHere := true, accExpected := 4, accMax := 1, linkRx := [.fail] }

theorem witness_inv_capturing : Inv capturing where
  neverPersisted := by decide
  memories := idle_memories
  frameLen := by decide
  attempts := by decide
  openedHere := by decide
  running := fun _ => ⟨by decide, by decide, by decide⟩
  otherSeq := by decide
  captureSeq := by decide
  capture := fun _ _ => ⟨by decide, by decide, by decide, ⟨by decide, by decide, by decide⟩⟩
  window := fun _ => ⟨by decide, by decide, by decide, by decide⟩

/-- A CAPTURE under HEADER_FIRST with a whole 1 by 1 frame received. -/
def received : State :=
  { framed (linked (running 6)) [0, 1, 1, 77] with
    status := { (linked (running 6)).status with seqState := .accumulating }
    cfgAcc := { maxAttempts := 100, lengthPolicy := .headerFirst }
    capPhase := .parse, accCount := 4, accExpected := 4, accMax := 100, accAttempts := 2 }

theorem witness_inv_received : Inv received where
  neverPersisted := by decide
  memories := by unfold MemoriesWf; decide
  frameLen := by decide
  attempts := by decide
  openedHere := by decide
  running := fun _ => ⟨by decide, by decide, by decide⟩
  otherSeq := by decide
  captureSeq := by decide
  capture := fun _ _ => ⟨by decide, by decide, by decide, by decide, fun _ => by decide⟩
  window := fun h => absurd h.2 (by decide)

/-! ### Witnesses: what each statement with hypotheses assumes is met, clause by clause -/

/-- The next state exists: for the statements that assume that a step or an instruction answers one. -/
abbrev Goes (outcome : Host.Outcome State Fault Refusal) : Prop := ∃ t, outcome = .next t

theorem witness_DecodeOfEncodeIsTheInstruction :
    (Instr.response 0 0 0 []).wellFormed = true ∧ (Instr.response 1 2 1 [7, 9]).wellFormed = true := by
  decide

theorem witness_EncodeOfDecodeIsThePacket :
    decode (.cmd 9) = .ok .abort ∧ decode (.host 0xE000FE03000000FF) = .ok (.mw .frame 65027 0xFF) ∧
      decode (.req16 0xFFFF) = .ok (.request 0xFF 0xFF) ∧ decode (.resp [0, 0, 0]) = .ok (.response 0 0 0 []) ∧
      decode (.resp [1, 2, 1, 7, 9]) = .ok (.response 1 2 1 [7, 9]) := by
  decide

/-- The first illegal word of either form, while idle and while busy. -/
theorem witness_IllegalCommandWordsAreRejected :
    0x0A ≤ ((0x0000000A : Word).extractLsb' 0 8).toNat ∧ (0x00000100 : Word).extractLsb' 8 24 ≠ 0 ∧
      idle.status.busy = false ∧ (running 1).status.busy = true := by
  decide

/-- A packet that decodes; the first illegal word of either form; a response one sample short. -/
theorem witness_StepRunsTheScheduledPacket :
    (({ idle with schedule := [.packet (.cmd 6)] } : State).schedule = .packet (.cmd 6) :: [] ∧
        decode (.cmd 6) = .ok .capture) ∧
      (({ idle with schedule := [.packet (.cmd 0x0A)] } : State).schedule = .packet (.cmd 0x0A) :: [] ∧
        0x0A ≤ ((0x0000000A : Word).extractLsb' 0 8).toNat ∧ (0x00000100 : Word).extractLsb' 8 24 ≠ 0) ∧
      (({ idle with schedule := [.packet (.resp [0, 1, 1])] } : State).schedule = .packet (.resp [0, 1, 1]) :: [] ∧
        ∀ i, decode (.resp [0, 1, 1]) ≠ .ok i) :=
  ⟨by decide, by decide, by decide, fun i h => by cases h⟩

theorem witness_StepRunsTheEngineStage :
    (running 8).status.busy = true ∧ engineInstr (running 8).curOp = some .linkClose ∧ (running 8).schedule = [] ∧
      ({ running 1 with schedule := [.engine] } : State).schedule = .engine :: [] ∧ idle.status.busy = false ∧
      idle.schedule = [] := by
  decide

theorem witness_CommandIsTheWriteOfItsWord : idle.turn ≠ .engine := by decide

/-- Also of `ResetKeepsMemoriesAndClosesTheLink`, with the link closed and open. -/
theorem witness_ResetSetsEveryRegister :
    ({ running 3 with schedule := [.reset] } : State).schedule = .reset :: [] ∧
      ({ linked idle with schedule := [.reset] } : State).schedule = .reset :: [] := by
  decide

theorem witness_EveryStepKeepsTheInvariant : Inv reading ∧ Goes (step reading) := ⟨witness_inv_reading, _, rfl⟩

theorem witness_NoStepFaults : Inv capturing := witness_inv_capturing

/-- The refusal that the statement names does happen. -/
theorem witness_OnlyMalformedDescriptorsAreRefused :
    ({ idle with schedule := [.packet (.host 0xB000000000000000)] } : State).schedule =
        .packet (.host 0xB000000000000000) :: [] ∧
      decodeHost 0xB000000000000000 = none := by
  decide

theorem witness_PersistedIsNeverWritten : idle.status.seqState ≠ .persisted ∧ Goes (step idle) :=
  ⟨by decide, _, rfl⟩

theorem witness_LinkOperationsNeedAnOpenLink : Inv capturing ∧ Goes (step capturing) :=
  ⟨witness_inv_capturing, _, rfl⟩

theorem witness_EngineWritesOnlyItsSpaces :
    reading.status.busy = true ∧ reading.schedule = [] ∧ Goes (step reading) ∧
      writesSpace reading.curOp .mosaic = false :=
  ⟨by decide, by decide, ⟨_, rfl⟩, by decide⟩

theorem witness_ConfigurationIsStableWhileBusy :
    reading.status.busy = true ∧ (∀ rest, reading.schedule ≠ .reset :: rest) ∧ Goes (step reading) :=
  ⟨by decide, fun _ h => List.cons_ne_nil _ _ h.symm, _, rfl⟩

/-- One state for each of the three bounds. -/
theorem witness_EveryCommandEnds :
    (Inv (running 2) ∧ (running 2).schedule = [] ∧ (running 2).status.busy = true ∧ (running 2).curOp ≠ 0x03 ∧
        (running 2).curOp ≠ 0x06) ∧
      (Inv (running 3) ∧ (running 3).schedule = [] ∧ (running 3).status.busy = true ∧ (running 3).curOp = 0x03 ∧
        (running 3).accStarted = false) ∧
      (Inv (running 6) ∧ (running 6).schedule = [] ∧ (running 6).status.busy = true ∧ (running 6).curOp = 0x06 ∧
        (running 6).capPhase = .check) :=
  ⟨⟨witness_inv_parse, by decide⟩, ⟨witness_inv_accumulate, by decide⟩, ⟨witness_inv_capture, by decide⟩⟩

theorem witness_ConfigurationWritesReadBack : idle.status.busy = false := by decide

/-- The indices at the ends of the list. -/
theorem witness_ReadOnlyWritesHaveNoEffect :
    idle.status.busy = false ∧ (1 : BitVec 4) ∈ [1, 6, 7, 8, 9, 11, 12, 13, 14, 15] ∧
      (15 : BitVec 4) ∈ [1, 6, 7, 8, 9, 11, 12, 13, 14, 15] := by
  decide

/-- The writes next to ABORT, and each line of the table of R71 with the last address of its space. -/
theorem witness_HostAccessWhileBusy :
    (running 1).status.busy = true ∧ ¬((0 : BitVec 4) = 0 ∧ (0x00000008 : Word) = 0x00000009) ∧
      ¬((1 : BitVec 4) = 0 ∧ (0x00000009 : Word) = 0x00000009) ∧
      ((running 1).curOp = 0x01 ∧ (195074 : BitVec 18).toNat < spaceSize .rgb) ∧
      ((running 2).curOp = 0x02 ∧ (65024 : BitVec 18).toNat < spaceSize .mosaic) ∧
      ((running 3).curOp = 0x03 ∧ (65027 : BitVec 18).toNat < spaceSize .frame) ∧
      ((running 6).curOp = 0x06 ∧ (0 : BitVec 18).toNat < spaceSize .mosaic) := by
  decide

/-- The first address out of range and the last in range, idle and busy. -/
theorem witness_ByteReadReturnsTheByte :
    spaceSize .mosaic ≤ (65025 : BitVec 18).toNat ∧
      ((65024 : BitVec 18).toNat < spaceSize .mosaic ∧ (running 2).status.busy = true ∧
        writesSpace (running 2).curOp .mosaic = true) ∧
      ((65024 : BitVec 18).toNat < spaceSize .mosaic ∧ idle.status.busy = false) ∧
      ((65027 : BitVec 18).toNat < spaceSize .frame ∧ writesSpace (running 1).curOp .frame = false) := by
  decide

theorem witness_ByteWriteStoresTheByte :
    (running 1).status.busy = true ∧
      (idle.status.busy = false ∧ spaceSize .rgb ≤ (195075 : BitVec 18).toNat) ∧
      (idle.status.busy = false ∧ (195074 : BitVec 18).toNat < spaceSize .rgb) := by
  decide

theorem witness_NopCompletesAtOnce : idle.status.busy = false := by decide

/-- The first and the last opcode of the range, and CAPTURE. -/
theorem witness_CommandsAreAcceptedWhileIdle :
    idle.status.busy = false ∧ (1 ≤ (0x01 : Byte).toNat ∧ (0x01 : Byte).toNat ≤ 8) ∧
      (1 ≤ (0x06 : Byte).toNat ∧ (0x06 : Byte).toNat ≤ 8) ∧ (1 ≤ (0x08 : Byte).toNat ∧ (0x08 : Byte).toNat ≤ 8) := by
  decide

theorem witness_AbortStopsTheRunningCommand :
    idle.status.busy = false ∧
      ((running 2).status.busy = true ∧ (running 2).curOp ≠ 0x03 ∧ (running 2).curOp ≠ 0x06) ∧
      ((running 3).status.busy = true ∧ (running 3).curOp = 0x03) ∧
      ((running 6).status.busy = true ∧ (running 6).curOp = 0x06) := by
  decide

theorem witness_CaptureFailureCleansUp :
    (ErrCode.aborted, SeqState.aborted) ∈
      [(ErrCode.acquisitionTimeout, SeqState.timeout), (.malformedFrame, .malformedFrame),
        (.deviceUnavailable, .deviceUnavailable), (.unsupportedPattern, .unsupportedPattern),
        (.aborted, .aborted)] := by
  decide

theorem witness_CaptureClosesTheLinkItOpened :
    Inv capturing ∧ capturing.openedHere = true ∧ ∃ t, step capturing = .next t ∧ t.status.busy = false :=
  ⟨witness_inv_capturing, by decide, _, rfl, by decide⟩

/-- The link's answers come from the state while one is lined up, and are drawn when none is. -/
theorem witness_Acked :
    Acked { running 7 with linkAcks := [false] } false [] 0 ∧ Acked { running 7 with linkAcks := [true] } true [] 0 ∧
      Acked (running 7) (Config.linkOk 0) [] 1 :=
  ⟨.inl ⟨rfl, rfl⟩, .inl ⟨rfl, rfl⟩, .inr ⟨rfl, rfl, rfl, rfl⟩⟩

theorem witness_LinkOpenOpensTheDevice :
    ((linked (running 7)).turn = .engine ∧ (linked (running 7)).status.linkOpen = true) ∧
      ((running 7).turn = .engine ∧ (running 7).status.linkOpen = false ∧
        Acked (running 7) (Config.linkOk 0) [] 1) :=
  ⟨by decide, by decide, by decide, .inr ⟨rfl, rfl, rfl, rfl⟩⟩

theorem witness_LinkCloseClosesTheDevice :
    ((linked (running 8)).turn = .engine ∧ (linked (running 8)).status.linkOpen = true) ∧
      ((running 8).turn = .engine ∧ (running 8).status.linkOpen = false) := by
  decide

theorem witness_LinkResetEmptiesTheFrame :
    ((running 5).turn = .engine ∧ (running 5).status.linkOpen = false) ∧
      ((linked (running 5)).turn = .engine ∧ (linked (running 5)).status.linkOpen = true ∧
        Acked (linked (running 5)) (Config.linkOk 0) [] 1) :=
  ⟨by decide, by decide, by decide, .inr ⟨rfl, rfl, rfl, rfl⟩⟩

/-- The link open with its two answers lined up: `fail`, and `ok` then `fail`. -/
theorem witness_SendRequestWritesTheTwoBytes :
    ((running 4).turn = .engine ∧ (running 4).status.linkOpen = false) ∧
      ((linked (running 4)).turn = .engine ∧ (linked (running 4)).status.linkOpen = true ∧
        Acked { linked (running 4) with linkAcks := [false] } false [] 0) ∧
      (Acked { linked (running 4) with linkAcks := [true, false] } true [false] 0 ∧
        Acked { linked (running 4) with linkAcks := [false], draws := 0 } false [] 0) :=
  ⟨by decide, ⟨by decide, by decide, .inl ⟨rfl, rfl⟩⟩, .inl ⟨rfl, rfl⟩, .inl ⟨rfl, rfl⟩⟩

/-- The least and the greatest signed byte. -/
theorem witness_RequestIsTheTwoBytes :
    (-128 ≤ (-128 : Int) ∧ (-128 : Int) ≤ 127) ∧ (-128 ≤ (127 : Int) ∧ (127 : Int) ≤ 127) := by
  decide

/-- A read that fails, one that asks for exactly what the device holds, and one that asks for less, with the bytes that
were queued and with others. -/
theorem witness_LinkReadsKeepTheContract :
    let s : State := { reading with linkQueue := [5] }
    ({ s with linkRx := [.fail] } : State).linkRx = .fail :: [] ∧
      (s.linkRx = .chunk [7] :: [] ∧ [5, 7] = s.linkQueue ++ [7]) ∧
      ({ s with linkRx := [.altered [6, 7]] } : State).linkRx = .altered [6, 7] :: [] ∧
      [(6 : Byte), 7].length ≤ 2 ∧ 2 ≤ [(6 : Byte), 7].length ∧ 1 ≤ [(6 : Byte), 7].length := by
  decide

/-- A read that the link gives its whole chunk. -/
theorem witness_AccumulatedResponseLiesInFrame :
    let s : State := { reading with accExpected := 4, linkRx := [.chunk [0, 1, 1, 77]] }
    s.turn = .engine ∧ s.accStarted = true ∧ s.frameLen = 0 ∧
      [(77 : Byte)].length = (1 : Byte).toNat * (1 : Byte).toNat ∧ (0 : Nat) < (1 : Byte).toNat ∧
      ReadAnswered s (some [0, 1, 1, 77]) [] [] 0 :=
  ⟨by decide, by decide, by decide, by decide, by decide, rfl⟩

/-- The window one byte above, and exactly, what `FRAME` holds; the empty window; the empty budget. -/
theorem witness_AccumulateStartChecksInOrder :
    (running 3).turn = .engine ∧ (running 3).accStarted = false ∧ (running 3).status.linkOpen = false ∧
      (linked (running 3)).status.linkOpen = true ∧ (linked (running 3)).accExpected = 0 ∧
      (({ linked (running 3) with accExpected := 65029 } : State).accExpected.toNat : Int) >
        (Config.frameCap : Int) - (linked (running 3)).frameLen.toNat ∧
      (({ linked (running 3) with accExpected := 65028 } : State).accExpected.toNat : Int) ≤
        (Config.frameCap : Int) - (linked (running 3)).frameLen.toNat ∧
      (linked (running 3)).cfgAcc.maxAttempts ≠ 0 ∧
      ({ linked (running 3) with cfgAcc := { maxAttempts := 0, lengthPolicy := .configured } } : State).cfgAcc.maxAttempts
        = 0 := by
  decide

/-- A failed read; the chunk that completes the window; the empty chunk that spends the budget, and one that does not. -/
theorem witness_AccumulateReadStep :
    ReadAnswered { reading with linkRx := [.fail] } none [] (Config.linkLeft 0) 1 ∧
      (ReadAnswered reading (some [7]) [] [] 0 ∧ reading.accCount + BitVec.ofNat 32 [(7 : Byte)].length = 1) ∧
      (ReadAnswered { reading with linkRx := [.chunk []] } (some []) [] [] 0 ∧ reading.accCount + 0 ≠ reading.accExpected ∧
        reading.accAttempts + 1 = reading.accMax.setWidth 32) ∧
      (ReadAnswered { reading with accMax := 2, linkRx := [.chunk []] } (some []) [] [] 0 ∧
        reading.accAttempts + 1 ≠ (2 : BitVec 16).setWidth 32) :=
  ⟨rfl, ⟨rfl, by decide⟩, ⟨rfl, by decide, by decide⟩, rfl, by decide⟩

theorem witness_ReadBytesKeepArrivalOrder :
    reading.turn = .engine ∧ reading.accStarted = true ∧ ReadAnswered reading (some [7]) [] [] 0 :=
  ⟨by decide, by decide, rfl⟩

theorem witness_AccumulateEndsWithinItsBudget :
    Inv reading ∧ reading.schedule = [] ∧ reading.status.busy = true ∧ reading.curOp = 0x03 ∧
      reading.accStarted = true :=
  ⟨witness_inv_reading, by decide⟩

/-- A budget of one read. -/
theorem witness_SilentLinkTimesOutAfterExactlyTheBudget :
    let s : State := { reading with linkRx := [.chunk []] }
    s.schedule = [] ∧ s.status.busy = true ∧ s.curOp = 0x03 ∧ s.accStarted = true ∧ s.accCount = 0 ∧
      s.accAttempts = 0 ∧ s.accExpected ≠ 0 ∧ s.accMax ≠ 0 ∧ s.linkQueue = [] ∧
      s.linkRx = List.replicate s.accMax.toNat (.chunk []) ++ [] := by
  decide

/-- One chunk, and as many reads as the budget has. -/
theorem witness_ChunkedLinkFillsTheWindow :
    reading.schedule = [] ∧ reading.status.busy = true ∧ reading.curOp = 0x03 ∧ reading.accStarted = true ∧
      reading.accCount = 0 ∧ reading.accAttempts = 0 ∧ [[(7 : Byte)]] ≠ [] ∧
      (∀ chunk ∈ [[(7 : Byte)]], chunk ≠ []) ∧ [[(7 : Byte)]].flatten.length = reading.accExpected.toNat ∧
      [[(7 : Byte)]].length ≤ reading.accMax.toNat ∧
      reading.frameLen.toNat + reading.accExpected.toNat ≤ Config.frameCap ∧ reading.linkQueue = [] ∧
      reading.linkRx = [[(7 : Byte)]].map .chunk := by
  decide

/-- A frame of 2 bytes; a header alone that declares none, and one that declares a sample too many. -/
theorem witness_ParseSplitsTheFrame :
    ((running 2).turn = .engine ∧ (framed (running 2) [7, 3]).frameLen.toNat < 3) ∧
      (3 ≤ (framed (running 2) [0, 0, 5]).frameLen.toNat ∧
        (framed (running 2) [0, 0, 5]).frameLen.toNat - 3 =
          ((framed (running 2) [0, 0, 5]).peek .frame 1).toNat *
            ((framed (running 2) [0, 0, 5]).peek .frame 2).toNat) ∧
      (3 ≤ (framed (running 2) [0, 1, 1]).frameLen.toNat ∧
        (framed (running 2) [0, 1, 1]).frameLen.toNat - 3 ≠
          ((framed (running 2) [0, 1, 1]).peek .frame 1).toNat *
            ((framed (running 2) [0, 1, 1]).peek .frame 2).toNat) := by
  decide

/-- The last legal pattern, and the last pixel of a reset-sized image. -/
theorem witness_DemosaicWritesTheImage :
    let s : State := { running 1 with cfgDemosaic := { pattern := 3, border := .mirror, rounding := .halfUp } }
    s.turn = .engine ∧ layoutOfPattern s.cfgDemosaic.pattern = some .bggr ∧ 159 < s.cfgDim.width.toNat ∧
      119 < s.cfgDim.height.toNat := by
  decide

/-- The first illegal pattern. -/
theorem witness_DemosaicRejectsUnsupportedPatterns :
    let s : State := { running 1 with cfgDemosaic := { pattern := 4, border := .mirror, rounding := .halfUp } }
    s.turn = .engine ∧ 3 < s.cfgDemosaic.pattern.toNat := by
  decide

theorem witness_SiteClassesFollowTheTable : 0 % 2 = 0 ∧ 1 % 2 = 1 := by decide

/-- The least dimension and the next; a 1 by 1 image, and the far offset of a corner. -/
theorem witness_NeighboursLieInTheMosaic :
    let a : DemosaicArgs := { layout := .rggb, border := .mirror, rounding := .halfUp, width := 1, height := 1 }
    1 ≤ 1 ∧ 1 ≤ 2 ∧ 0 < 1 ∧ 0 < a.width ∧ 0 < a.height ∧ (1, 1) ∈ (siteClass a.layout 0 0 .b).offsets := by
  decide

/-- The least image the statement takes in. -/
theorem witness_MirrorSamplesTheSameChannel :
    let a : DemosaicArgs := { layout := .rggb, border := .mirror, rounding := .halfUp, width := 2, height := 2 }
    a.border = .mirror ∧ 2 ≤ a.width ∧ 2 ≤ a.height ∧ 1 < a.width ∧ 1 < a.height ∧
      (-1, 0) ∈ (siteClass a.layout 1 1 .g).offsets := by
  decide

/-- Both roundings, and a site whose channel is its own. -/
theorem witness_ClampNeverChangesAValue :
    let a (rounding : Rounding) : DemosaicArgs :=
      { layout := .rggb, border := .mirror, rounding := rounding, width := 1, height := 1 }
    (a .halfUp).rounding = .halfUp ∧ (a .trunc).rounding = .trunc ∧ 0 < (a .trunc).width ∧ 0 < (a .trunc).height ∧
      native (a .trunc).layout 0 0 = .r := by
  decide

/-- Two states that differ in `FRAME` and in the error record. -/
theorem witness_DemosaicIsPure :
    let s : State := { (running 1).poke .mosaic 0 [9] with cfgDim := { width := 1, height := 1 } }
    let s' : State := (framed s [1, 2]).finish .aborted 1 2
    s.turn = .engine ∧ s'.turn = .engine ∧ s.cfgDim = s'.cfgDim ∧ s.cfgDemosaic = s'.cfgDemosaic ∧
      s.cfgDemosaic.pattern.toNat ≤ 3 ∧
      (∀ i, i < s.cfgDim.width.toNat * s.cfgDim.height.toNat → s.peek .mosaic i = s'.peek .mosaic i) ∧
      Goes (exec .demosaic s) ∧ Goes (exec .demosaic s') ∧ s ≠ s' :=
  ⟨by decide, by decide, by decide, by decide, by decide, by decide, ⟨_, rfl⟩, ⟨_, rfl⟩, by decide⟩

/-- Both sides of the pattern's bound, and the link closed and open. -/
theorem witness_CaptureChecksThePatternThenOpens :
    ((running 6).turn = .engine ∧ (running 6).capPhase = .check ∧ (running 6).openedHere = false) ∧
      3 < (4 : Byte).toNat ∧ (3 : Byte).toNat ≤ 3 ∧
      (({ linked (running 6) with capPhase := .openLink } : State).capPhase = .openLink ∧
        (linked (running 6)).status.linkOpen = true) ∧
      ((running 6).status.linkOpen = false ∧
        Acked { running 6 with capPhase := .openLink } (Config.linkOk 0) [] 1) :=
  ⟨by decide, by decide, by decide, by decide, by decide, .inr ⟨rfl, rfl, rfl, rfl⟩⟩

theorem witness_CaptureResetsTheLinkThenSends :
    ((running 6).turn = .engine ∧ ({ running 6 with capPhase := .resetLink } : State).capPhase = .resetLink ∧
        Acked { running 6 with capPhase := .resetLink } (Config.linkOk 0) [] 1) ∧
      (({ running 6 with capPhase := .sendRequest } : State).capPhase = .sendRequest ∧
        Acked { running 6 with capPhase := .sendRequest, linkAcks := [false] } false [] 0) ∧
      (Acked { running 6 with capPhase := .sendRequest, linkAcks := [true, true] } true [true] 0 ∧
        Acked { running 6 with capPhase := .sendRequest, linkAcks := [true], draws := 0 } true [] 0) :=
  ⟨⟨by decide, by decide, .inr ⟨rfl, rfl, rfl, rfl⟩⟩, ⟨by decide, .inl ⟨rfl, rfl⟩⟩, .inl ⟨rfl, rfl⟩, .inl ⟨rfl, rfl⟩⟩

/-- Both policies, with no read and with one in the budget. -/
theorem witness_CaptureOpensTheWindow :
    let s (policy : LengthPolicy) (budget : BitVec 16) : State :=
      { running 6 with capPhase := .accInit, cfgAcc := { maxAttempts := budget, lengthPolicy := policy } }
    (s .configured 0).turn = .engine ∧ (s .configured 0).capPhase = .accInit ∧
      ((s .configured 0).cfgAcc.lengthPolicy = .configured ∧ (s .configured 0).cfgAcc.maxAttempts = 0) ∧
      ((s .configured 1).cfgAcc.lengthPolicy = .configured ∧ (s .configured 1).cfgAcc.maxAttempts ≠ 0) ∧
      ((s .headerFirst 0).cfgAcc.lengthPolicy = .headerFirst ∧ (s .headerFirst 0).cfgAcc.maxAttempts = 0) ∧
      ((s .headerFirst 1).cfgAcc.lengthPolicy = .headerFirst ∧ (s .headerFirst 1).cfgAcc.maxAttempts ≠ 0) := by
  decide

/-- A failed read; a header that declares no payload and so completes; a chunk after which the budget is spent, and one
after which it is not. -/
theorem witness_CaptureReadStep :
    (capturing.turn = .engine ∧ capturing.capPhase = .accRead ∧ ReadAnswered capturing none [] (Config.linkLeft 0) 1) ∧
      (ReadAnswered { capturing with accExpected := 3, accHdrPending := true, linkRx := [.chunk [0, 0, 5]] }
          (some [0, 0, 5]) [] [] 0 ∧
        capturing.accCount + BitVec.ofNat 32 [(0 : Byte), 0, 5].length = 3) ∧
      (ReadAnswered { capturing with linkRx := [.chunk [0]] } (some [0]) [] [] 0 ∧
        capturing.accCount + 1 ≠ capturing.accExpected ∧ capturing.accAttempts + 1 = capturing.accMax.setWidth 32) ∧
      (ReadAnswered { capturing with accMax := 2, linkRx := [.chunk [0]] } (some [0]) [] [] 0 ∧
        capturing.accAttempts + 1 ≠ (2 : BitVec 16).setWidth 32) :=
  ⟨⟨by decide, by decide, rfl⟩, ⟨rfl, by decide⟩, ⟨rfl, by decide, by decide⟩, rfl, by decide⟩

/-- The three exits of PARSE, and the last stage. -/
theorem witness_CaptureParsesThenDemosaics :
    (received.turn = .engine ∧ received.capPhase = .parse ∧ ({ received with frameLen := 2 } : State).frameLen.toNat < 3) ∧
      (3 ≤ ({ received with frameLen := 3 } : State).frameLen.toNat ∧
        ({ received with frameLen := 3 } : State).frameLen.toNat - 3 ≠
          (received.peek .frame 1).toNat * (received.peek .frame 2).toNat) ∧
      (3 ≤ received.frameLen.toNat ∧
        received.frameLen.toNat - 3 = (received.peek .frame 1).toNat * (received.peek .frame 2).toNat) ∧
      (({ received with capPhase := .demosaic } : State).capPhase = .demosaic ∧
        layoutOfPattern received.cfgDemosaic.pattern = some .rggb) := by
  decide

theorem witness_HeaderFirstCaptureIsNeverMalformed :
    Inv received ∧ received.status.busy = true ∧ received.curOp = 0x06 ∧ received.capPhase = .parse ∧
      received.cfgAcc.lengthPolicy = .headerFirst ∧ received.schedule = [] :=
  ⟨witness_inv_received, by decide⟩

end Sys2Proof.Tests
end

section
/-! Proofs of the statements on 20_memory.md: what a host byte write does in each case of R65, and what it leaves
unchanged. -/

namespace Sys2Proof.Proofs.Memory

open Sys2Proof Sys2Proof.Machine

/-! ### A write of bytes: the byte it defines, the bytes and the state it leaves unchanged -/

@[simp] theorem peek_poke_singleton_same (s : State) (space : Space) (addr : Nat) (v : Byte) :
    (s.poke space addr [v]).peek space addr = v := by
  simp [State.peek_poke]

/-- A write of one byte changes no other byte, of its own space or of another. -/
theorem peek_poke_singleton_ne (s : State) {space other : Space} {addr a : Nat} (v : Byte)
    (hne : ¬(other = space ∧ a = addr)) : (s.poke space addr [v]).peek other a = s.peek other a := by
  have outside : ¬(other = space ∧ addr ≤ a ∧ a - addr < [v].length) := by
    rintro ⟨hspace, hle, hlt⟩
    rw [List.length_singleton] at hlt
    exact hne ⟨hspace, by omega⟩
  rw [State.peek_poke, dif_neg outside]

/-- The frame of a write: no field but the three memories differs. -/
theorem poke_eq_with_memories (s : State) (space : Space) (base : Nat) (bs : List Byte) :
    s.poke space base bs =
      { s with
        mosaic := (s.poke space base bs).mosaic
        rgb := (s.poke space base bs).rgb
        frame := (s.poke space base bs).frame } := by
  cases space <;> rfl

/-! ### The three cases of R65 -/

theorem memWrite_of_busy (s : State) (space : Space) (addr : Nat) (v : Byte) (busy : s.status.busy = true) :
    s.memWrite space addr v = s.dropWrite := by
  simpa [busy] using s.memWrite_spec space addr v

theorem memWrite_of_size_le (s : State) {space : Space} {addr : Nat} (v : Byte) (idle : s.status.busy = false)
    (out : spaceSize space ≤ addr) : s.memWrite space addr v = s := by
  simpa [idle, out, Nat.not_lt.2 out] using s.memWrite_spec space addr v

theorem memWrite_of_lt_size (s : State) {space : Space} {addr : Nat} (v : Byte) (idle : s.status.busy = false)
    (inRange : addr < spaceSize space) : s.memWrite space addr v = s.poke space addr [v] := by
  simpa [idle, inRange, Nat.not_le.2 inRange] using s.memWrite_spec space addr v

/-- Settles O26: the three cases of R65, and in the one that stores, a write of the single byte. -/
theorem byteWriteStoresTheByte : Obligations.ByteWriteStoresTheByte := by
  intro s space addr v
  refine ⟨fun busy => ?_, fun idle out => ?_, fun idle inRange => ?_⟩
  · rw [exec_mw, memWrite_of_busy s space addr.toNat v busy, State.dropWrite]
  · rw [exec_mw, memWrite_of_size_le s v idle out]
  · refine ⟨s.poke space addr.toNat [v], ?_, ?_, ?_, ?_⟩
    · rw [exec_mw, memWrite_of_lt_size s v idle inRange]
    · exact peek_poke_singleton_same s space addr.toNat v
    · exact fun other a hne => peek_poke_singleton_ne s v hne
    · exact poke_eq_with_memories s space addr.toNat [v]

end Sys2Proof.Proofs.Memory
end

section
/-! Proofs of the statements on 30_encoding.md: which command words are illegal (R83), and what the write of one to `CMD`
does while idle and while busy (R203). -/

namespace Sys2Proof.Proofs.Encoding

open Sys2Proof Sys2Proof.Machine

/-! ### The command words that decode to no instruction -/

/-- The opcode map of R82 ends at 0x09. -/
theorem commandOfOp_eq_none_iff (op : Byte) : commandOfOp op = none ↔ 0x0A ≤ op.toNat := by
  unfold commandOfOp
  split
  case h_11 =>
    simp only [imp_false, true_iff] at *
    omega
  all_goals
    simp only [reduceCtorEq, false_iff]
    omega

theorem decodeCommand_eq_none_iff (v : Word) :
    decodeCommand v = none ↔ v.extractLsb' 8 24 ≠ 0 ∨ 0x0A ≤ (v.extractLsb' 0 8).toNat := by
  unfold decodeCommand
  split
  case isTrue high => rw [commandOfOp_eq_none_iff, or_iff_right (not_not_intro high)]
  case isFalse high => exact iff_of_true rfl (.inl high)

theorem decode_cmd_eq_illegalCommand_iff (v : Word) :
    decode (.cmd v) = .error (.illegalCommand v) ↔ decodeCommand v = none := by
  cases found : decodeCommand v <;> simp [decode, found]

/-! ### The write of such a word to `CMD` -/

theorem issue_of_decodeCommand_none (s : State) {v : Word} (illegal : decodeCommand v = none) :
    s.issue v = (s.bookkeep v).finish .illegalCommand v 0 := by
  simpa [illegal] using s.issue_spec v

/-- ABORT is the one word a busy block takes, and it is legal. -/
theorem ne_abort_of_decodeCommand_none {v : Word} (illegal : decodeCommand v = none) : v ≠ 0x00000009 := by
  rintro rfl
  have legal : decodeCommand 0x00000009 = some .abort := rfl
  rw [legal] at illegal
  contradiction

theorem regWrite_illegal_of_idle {s : State} {v : Word} (illegal : decodeCommand v = none)
    (idle : s.status.busy = false) : s.regWrite 0 v = (s.bookkeep v).finish .illegalCommand v 0 := by
  rw [State.regWrite_idle idle, if_pos rfl, issue_of_decodeCommand_none s illegal]

theorem regWrite_illegal_of_busy {s : State} {v : Word} (illegal : decodeCommand v = none)
    (busy : s.status.busy = true) : s.regWrite 0 v = s.dropWrite := by
  rw [State.regWrite_busy busy, if_neg fun h => ne_abort_of_decodeCommand_none illegal h.2]

/-- Settles O3: the words of R83 are those no command decodes from; idle, the write of one is the bookkeeping of an issue
ended by an ILLEGAL_COMMAND error, and busy it is a dropped write. -/
theorem illegalCommandWordsAreRejected : Obligations.IllegalCommandWordsAreRejected := by
  intro v
  refine ⟨(decode_cmd_eq_illegalCommand_iff v).trans (decodeCommand_eq_none_iff v), fun bits s => ?_⟩
  have illegal : decodeCommand v = none := (decodeCommand_eq_none_iff v).2 bits
  refine ⟨fun idle => ?_, fun busy => ?_⟩
  · rw [exec_rw, regWrite_illegal_of_idle illegal idle, State.finish, State.bookkeep]
  · rw [exec_rw, regWrite_illegal_of_busy illegal busy, State.dropWrite]

end Sys2Proof.Proofs.Encoding
end

section
/-! Proofs of the statements on 40_link_request.md: the engine steps of LINK_OPEN (R102), LINK_CLOSE (R103) and
SEND_REQUEST (R106), each from what the link answers to the operations it issues. -/

namespace Sys2Proof.Proofs.LinkRequest

open Sys2Proof Sys2Proof.Machine Sys2Proof.Safety

/-! ### What the link answers -/

/-- The answer depends on the answers lined up and the draw counter alone. -/
theorem acked_congr {s t : State} {ok : Bool} {acks : List Bool} {k : Nat} (sameAcks : t.linkAcks = s.linkAcks)
    (sameDraws : t.draws = s.draws) : Acked t ok acks k ↔ Acked s ok acks k := by
  simp only [Acked, sameAcks, sameDraws]

/-- An operation whose answer is known is logged, and its answer is used up. -/
theorem linkAck_of_acked {s : State} {ok : Bool} {acks : List Bool} {k : Nat} (acked : Acked s ok acks k)
    (op : LinkOp) : s.linkAck op = (ok, { s.issueLink op with linkAcks := acks, draws := k }) := by
  rcases acked with ⟨linedUp, rfl⟩ | ⟨noneLeft, rfl, rfl, rfl⟩ <;>
    rcases s.linkAck_spec op with ⟨answer, rest, first, taken⟩ | ⟨empty, drawn⟩
  case inl.inl =>
    obtain ⟨rfl, rfl⟩ := List.cons.inj (first.symm.trans linedUp)
    exact taken
  case inr.inr =>
    rw [drawn, ← noneLeft]
    rfl
  case inl.inr => exact absurd (linedUp.symm.trans empty) (List.cons_ne_nil _ _)
  case inr.inl => exact absurd (first.symm.trans noneLeft) (List.cons_ne_nil _ _)

/-! ### LINK_OPEN (R102) -/

theorem linkOpenStage_of_open {s : State} (isOpen : s.status.linkOpen = true) :
    s.linkOpenStage = s.finish .none 0 0 := by
  rw [State.linkOpenStage, if_pos isOpen, State.finishOk]

theorem linkOpenStage_of_closed {s : State} {ok : Bool} {acks : List Bool} {k : Nat}
    (closed : s.status.linkOpen = false) (acked : Acked s ok acks k) :
    s.linkOpenStage =
      if ok then
        State.finish
          { s with
            status := { s.status with linkOpen := true }
            linkLog := s.linkLog ++ [.linkOpen], linkAcks := acks, draws := k }
          .none 0 0
      else
        State.finish { s with linkLog := s.linkLog ++ [.linkOpen], linkAcks := acks, draws := k }
          .deviceUnavailable 1 s.frameLen := by
  rw [State.linkOpenStage, if_neg (by simp [closed]), linkAck_of_acked acked]
  cases ok <;> rfl

/-- Settles O33: the link is open and nothing is issued, or `LinkOpen` is issued and its answer decides. -/
theorem linkOpenOpensTheDevice : Obligations.LinkOpenOpensTheDevice := by
  refine ⟨rfl, fun s turn => ?_⟩
  rw [exec_linkOpen, State.asCommand_engine turn]
  refine ⟨fun isOpen => ?_, fun closed ok acks k acked => ?_⟩
  · rw [linkOpenStage_of_open isOpen]
  · rw [linkOpenStage_of_closed closed acked]

/-! ### LINK_CLOSE (R103) -/

theorem linkCloseStage_of_open {s : State} (isOpen : s.status.linkOpen = true) :
    s.linkCloseStage = s.closeLink.finish .none 0 0 := by
  rw [State.linkCloseStage, if_pos isOpen, State.finishOk]

theorem linkCloseStage_of_closed {s : State} (closed : s.status.linkOpen = false) :
    s.linkCloseStage = s.finish .none 0 0 := by
  rw [State.linkCloseStage, if_neg (by simp [closed]), State.finishOk]

/-- Settles O34: an open link is closed, and a closed one is left alone. -/
theorem linkCloseClosesTheDevice : Obligations.LinkCloseClosesTheDevice := by
  refine ⟨rfl, fun s turn => ?_⟩
  rw [exec_linkClose, State.asCommand_engine turn]
  refine ⟨fun isOpen => ?_, fun closed => ?_⟩
  · rw [linkCloseStage_of_open isOpen, State.closeLink, State.issueLink]
  · rw [linkCloseStage_of_closed closed]

/-! ### SEND_REQUEST (R106) -/

/-- The write that sends a request carries the two bytes of `REQ`, opcode first. -/
theorem encoded_runEncoder_req (s : State) :
    (s.runEncoder (s8 s.req.opcode) (s8 s.req.param)).encoded = [s.req.opcode, s.req.param] := by
  rw [State.runEncoder, encodeRequest_s8]

/-- The state in which the request has been encoded and its write issued, with the answers then left. -/
def requestWritten (s : State) (acks : List Bool) (k : Nat) : State :=
  { s with
    encoded := [s.req.opcode, s.req.param]
    linkLog := s.linkLog ++ [.linkWrite [s.req.opcode, s.req.param]], linkAcks := acks, draws := k }

theorem linkAck_write_of_acked {s : State} {ok : Bool} {acks : List Bool} {k : Nat} (acked : Acked s ok acks k) :
    (s.runEncoder (s8 s.req.opcode) (s8 s.req.param)).linkAck (.linkWrite [s.req.opcode, s.req.param]) =
      (ok, requestWritten s acks k) := by
  have ackedEncoded : Acked (s.runEncoder (s8 s.req.opcode) (s8 s.req.param)) ok acks k :=
    (acked_congr rfl rfl).2 acked
  rw [linkAck_of_acked ackedEncoded, State.issueLink, State.runEncoder, encodeRequest_s8, requestWritten]

/-- No flush is issued after a write that fails. -/
theorem sendBytes_of_write_failed {s : State} {acks : List Bool} {k : Nat} (failed : Acked s false acks k) :
    s.sendBytes = (false, requestWritten s acks k) := by
  have write := linkAck_write_of_acked failed
  rcases s.sendBytes_spec with ⟨-, sent⟩ | ⟨accepted, -⟩
  · rw [sent, encoded_runEncoder_req, write]
  · rw [encoded_runEncoder_req, write] at accepted
    contradiction

/-- The flush follows a write that succeeds, and its answer is the answer of the whole. -/
theorem sendBytes_of_written {s : State} {acks acks' : List Bool} {k k' : Nat} {ok : Bool}
    (written : Acked s true acks k) (flushed : Acked { s with linkAcks := acks, draws := k } ok acks' k') :
    s.sendBytes =
      (ok,
        { s with
          encoded := [s.req.opcode, s.req.param]
          linkLog := s.linkLog ++ [.linkWrite [s.req.opcode, s.req.param], .linkFlush]
          linkAcks := acks', draws := k' }) := by
  have write := linkAck_write_of_acked written
  have flush : Acked (requestWritten s acks k) ok acks' k' := (acked_congr rfl rfl).2 flushed
  rcases s.sendBytes_spec with ⟨refused, -⟩ | ⟨-, sent⟩
  · rw [encoded_runEncoder_req, write] at refused
    contradiction
  · rw [sent, encoded_runEncoder_req, write, linkAck_of_acked flush, State.issueLink, requestWritten]
    simp only [List.append_assoc, List.cons_append, List.nil_append]

theorem sendRequestStage_of_closed {s : State} (closed : s.status.linkOpen = false) :
    s.sendRequestStage = s.finish .deviceUnavailable 3 s.frameLen := by
  rw [State.sendRequestStage, if_neg (by simp [closed]), State.linkUnavailable]

/-- With the link open, what sending the bytes answers decides how the command ends. -/
theorem sendRequestStage_of_sent {s t : State} {ok : Bool} (isOpen : s.status.linkOpen = true)
    (sent : s.sendBytes = (ok, t)) :
    s.sendRequestStage =
      t.finish (if ok then .none else .deviceUnavailable) (if ok then 0 else 3) (if ok then 0 else t.frameLen) := by
  rw [State.sendRequestStage, if_pos isOpen, sent]
  cases ok <;> rfl

/-- Settles O36: no link, a failed write, and a write followed by a flush. -/
theorem sendRequestWritesTheTwoBytes : Obligations.SendRequestWritesTheTwoBytes := by
  refine ⟨rfl, fun s turn => ?_⟩
  rw [exec_sendRequest, State.asCommand_engine turn]
  refine ⟨fun closed => ?_, fun isOpen acks k failed => ?_, fun isOpen acks k written ok acks' k' flushed => ?_⟩
  · rw [sendRequestStage_of_closed closed]
  · rw [sendRequestStage_of_sent isOpen (sendBytes_of_write_failed failed)]
    rfl
  · rw [sendRequestStage_of_sent isOpen (sendBytes_of_written written flushed)]

end Sys2Proof.Proofs.LinkRequest
end

section
/-! Proofs of the statements on 41_accumulate.md: the checks of the start step of ACCUMULATE in their order (R121). -/

namespace Sys2Proof.Proofs.Accumulate

open Sys2Proof Sys2Proof.Machine

/-! ### The start step (R121) -/

theorem accumulateStage_of_not_started {s : State} (fresh : s.accStarted = false) :
    s.accumulateStage = s.accumulateStart := by
  rw [State.accumulateStage, if_neg (by simp [fresh])]

/-- The space left in `FRAME` as a register word is the integer difference modulo 2^32. -/
theorem frameRoom_eq_ofInt (s : State) :
    s.frameRoom = BitVec.ofInt 32 ((Config.frameCap : Int) - s.frameLen.toNat) := by
  rw [State.frameRoom, BitVec.sub_eq_add_neg, Int.sub_eq_add_neg, BitVec.ofInt_add, BitVec.ofInt_neg,
    BitVec.ofInt_natCast, BitVec.ofInt_natCast, BitVec.ofNat_toNat, BitVec.setWidth_eq]

theorem accumulateStart_of_closed {s : State} (closed : s.status.linkOpen = false) :
    s.accumulateStart = s.finish .deviceUnavailable 4 s.frameLen := by
  rw [State.accumulateStart, if_neg (by simp [closed]), State.linkUnavailable]

theorem accumulateStart_of_overflow {s : State} (isOpen : s.status.linkOpen = true)
    (overflow : Config.frameCap < s.accExpected.toNat + s.frameLen.toNat) :
    s.accumulateStart = s.finish .bufferOverflow s.accExpected s.frameRoom := by
  rw [State.accumulateStart, if_pos isOpen, if_pos overflow]

/-- Once the link is open and the window fits, the counters are cleared and the budget latched before the remaining
two checks. -/
theorem accumulateStart_of_fits {s : State} (isOpen : s.status.linkOpen = true)
    (fits : s.accExpected.toNat + s.frameLen.toNat ≤ Config.frameCap) :
    s.accumulateStart =
      if s.accExpected = 0 then s.clearCounters.finish .none 0 0
      else if s.cfgAcc.maxAttempts = 0 then s.clearCounters.finish .acquisitionTimeout 0 s.accExpected
      else { s.clearCounters with accStarted := true } := by
  rw [State.accumulateStart, if_pos isOpen, if_neg (Nat.not_lt.2 fits)]
  rfl

/-- Settles O41: the closed link, the overflow, and past both the three ends of the start step after the counters are
cleared. -/
theorem accumulateStartChecksInOrder : Obligations.AccumulateStartChecksInOrder := by
  intro s turn fresh
  rw [exec_accumulate, State.asCommand_engine turn, accumulateStage_of_not_started fresh]
  refine ⟨fun closed => ?_, fun isOpen overflow => ?_, fun isOpen fits => ?_⟩
  · rw [accumulateStart_of_closed closed]
  · rw [accumulateStart_of_overflow isOpen (by omega), frameRoom_eq_ofInt]
  · rw [accumulateStart_of_fits isOpen (by omega), State.clearCounters]
    refine ⟨fun empty => ?_, fun nonempty noBudget => ?_, fun nonempty budget => ?_⟩
    · rw [if_pos empty]
    · rw [if_neg nonempty, if_pos noBudget]
    · rw [if_neg nonempty, if_neg budget]

end Sys2Proof.Proofs.Accumulate
end

section
/-! Proofs of the statements on 42_parse.md: the three exits of PARSE (R141, R143, R144), and all it leaves unchanged
(R147). -/

namespace Sys2Proof.Proofs.Parse

open Sys2Proof Sys2Proof.Machine

/-! ### A block of bytes copied from one place to another -/

@[simp] theorem peekBlock_getElem (s : State) (space : Space) (base n i : Nat)
    (h : i < (s.peekBlock space base n).length) : (s.peekBlock space base n)[i] = s.peek space (base + i) := by
  simp [State.peekBlock]

/-- Each byte of the destination is the byte of the source that stood there before the copy. -/
theorem peek_poke_peekBlock_inside (s : State) (src dst : Space) (start base : Nat) {n i : Nat} (inside : i < n) :
    (s.poke dst base (s.peekBlock src start n)).peek dst (base + i) = s.peek src (start + i) := by
  simp [State.peek_poke, inside]

/-- A copy changes no byte outside its destination. -/
theorem peek_poke_peekBlock_outside (s : State) (src : Space) {dst space : Space} (start : Nat) {base n addr : Nat}
    (outside : ¬(space = dst ∧ base ≤ addr ∧ addr < base + n)) :
    (s.poke dst base (s.peekBlock src start n)).peek space addr = s.peek space addr := by
  rw [State.peek_poke, dif_neg]
  rintro ⟨sameSpace, low, high⟩
  rw [State.peekBlock_length] at high
  exact outside ⟨sameSpace, low, by omega⟩

/-! ### The header that a frame declares (R142) -/

/-- The number of samples the header of the frame declares. -/
def declaredLength (s : State) : Nat := (s.peek .frame 1).toNat * (s.peek .frame 2).toNat

/-- The three header bytes of the frame as the fields of `HDR`. -/
def declaredHdr (s : State) (valid : Bool) : Hdr :=
  { mode := s.peek .frame 0, width := s.peek .frame 1, height := s.peek .frame 2, valid := valid }

/-- The state in which the payload has been copied to `MOSAIC` and `HDR` written (R144). -/
def payloadCopied (s : State) : State :=
  { s.poke .mosaic 0 (s.peekBlock .frame 3 (declaredLength s)) with hdr := declaredHdr s true }

theorem payloadCopied_peek (s : State) (space : Space) (addr : Nat) :
    (payloadCopied s).peek space addr =
      (s.poke .mosaic 0 (s.peekBlock .frame 3 (declaredLength s))).peek space addr :=
  State.peek_congr (by cases space <;> rfl) addr

/-- `MOSAIC` and `HDR` are all that the copy changes (R147). -/
theorem payloadCopied_eq (s : State) :
    payloadCopied s = { s with hdr := declaredHdr s true, mosaic := (payloadCopied s).mosaic } := rfl

theorem payloadCopied_peek_mosaic {s : State} {i : Nat} (inside : i < declaredLength s) :
    (payloadCopied s).peek .mosaic i = s.peek .frame (3 + i) := by
  rw [payloadCopied_peek]
  simpa using peek_poke_peekBlock_inside s .frame .mosaic 3 0 inside

theorem payloadCopied_peek_of_outside {s : State} {space : Space} {addr : Nat}
    (outside : ¬(space = .mosaic ∧ addr < declaredLength s)) :
    (payloadCopied s).peek space addr = s.peek space addr := by
  rw [payloadCopied_peek]
  exact peek_poke_peekBlock_outside s .frame 3 fun ⟨sameSpace, _, high⟩ => outside ⟨sameSpace, by omega⟩

/-! ### What the parser answers in each case -/

theorem parseFrame_of_short {s : State} (short : s.frameLen.toNat < 3) :
    s.parseFrame = (some (s.frameLen, 3), { s with hdr := { s.hdr with valid := false } }) := by
  rcases s.parseFrame_spec with ⟨-, parsed⟩ | ⟨full, -⟩
  · exact parsed
  · omega

theorem parseFrame_of_length_ne {s : State} (full : 3 ≤ s.frameLen.toNat)
    (wrong : s.frameLen.toNat - 3 ≠ declaredLength s) :
    s.parseFrame =
      (some (s.frameLen, BitVec.ofNat 32 (3 + declaredLength s)), { s with hdr := declaredHdr s false }) := by
  rcases s.parseFrame_spec with ⟨short, -⟩ | ⟨-, n, rfl, -, hdr, rfl, ⟨-, parsed⟩ | ⟨right, -⟩⟩
  · omega
  · exact parsed
  · exact absurd right wrong

theorem parseFrame_of_length_eq {s : State} (full : 3 ≤ s.frameLen.toNat)
    (right : s.frameLen.toNat - 3 = declaredLength s) : s.parseFrame = (none, payloadCopied s) := by
  rcases s.parseFrame_spec with ⟨short, -⟩ | ⟨-, n, rfl, -, hdr, rfl, ⟨wrong, -⟩ | ⟨-, parsed⟩⟩
  · omega
  · exact absurd right wrong
  · exact parsed

/-! ### The engine step (R140) -/

/-- The end of a command writes no byte (00_scope.md R10). -/
theorem finish_peek (s : State) (code : ErrCode) (info0 info1 : Word) (space : Space) (addr : Nat) :
    (s.finish code info0 info1).peek space addr = s.peek space addr :=
  State.peek_congr (by cases space <;> rfl) addr

theorem parseStage_of_malformed {s t : State} {info0 info1 : Word}
    (malformed : s.parseFrame = (some (info0, info1), t)) :
    s.parseStage = t.finish .malformedFrame info0 info1 := by
  rw [State.parseStage, malformed]

theorem parseStage_of_parsed {s t : State} (parsed : s.parseFrame = (none, t)) :
    s.parseStage = t.finish .none 0 0 := by
  rw [State.parseStage, parsed]
  rfl

/-- Settles O47: a frame shorter than the header, a payload of another length than declared, and the payload copied. -/
theorem parseSplitsTheFrame : Obligations.ParseSplitsTheFrame := by
  refine ⟨rfl, fun s turn => ?_⟩
  rw [exec_parse, State.asCommand_engine turn]
  refine ⟨fun short => ?_, fun full => ⟨fun wrong => ?_, fun right => ?_⟩⟩
  · rw [parseStage_of_malformed (parseFrame_of_short short)]
  · rw [parseStage_of_malformed (parseFrame_of_length_ne full wrong), declaredLength, declaredHdr]
  · rw [parseStage_of_parsed (parseFrame_of_length_eq full right)]
    refine ⟨_, rfl, fun i inside => ?_, fun space addr outside => ?_, ?_⟩
    · rw [finish_peek, payloadCopied_peek_mosaic inside]
    · rw [finish_peek, payloadCopied_peek_of_outside outside]
    · exact congrArg (State.finish · .none 0 0) (payloadCopied_eq s)

end Sys2Proof.Proofs.Parse
end

section
/-! Proofs of the statements on 43_demosaic.md: the rejection of a pattern code without a layout (R171), the table of
classes by the parity of the site (R164), and the channel that MIRROR samples (R173). -/

namespace Sys2Proof.Proofs.Demosaic

open Sys2Proof Sys2Proof.Machine

/-! ### Parity: a site's channel and class (R161, R162) -/

theorem native_congr (layout : Layout) {x x' y y' : Nat} (hx : x % 2 = x' % 2) (hy : y % 2 = y' % 2) :
    native layout x y = native layout x' y' := by
  rw [native, native, hx, hy]

theorem siteClass_congr (layout : Layout) (c : Channel) {x x' y y' : Nat} (hx : x % 2 = x' % 2)
    (hy : y % 2 = y' % 2) : siteClass layout x y c = siteClass layout x' y' c := by
  have right : native layout (x + 1) y = native layout (x' + 1) y' := native_congr layout (by omega) hy
  rw [siteClass, siteClass, native_congr layout hx hy, right]

/-- A row of the table of R164: the native channel of a site and its classes for R, G and B. -/
def tableRow (layout : Layout) (x y : Nat) : Channel × SiteClass × SiteClass × SiteClass :=
  (native layout x y, siteClass layout x y .r, siteClass layout x y .g, siteClass layout x y .b)

/-- The site at the corner of the image with the same parities has the same row. -/
theorem tableRow_of_parity (layout : Layout) {x y px py : Nat} (hx : x % 2 = px) (hy : y % 2 = py) :
    tableRow layout x y = tableRow layout px py := by
  have hx' : x % 2 = px % 2 := by omega
  have hy' : y % 2 = py % 2 := by omega
  simp only [tableRow, native_congr layout hx' hy', siteClass_congr layout _ hx' hy']

/-- Settles O50: a row goes by the parity of the site, and the model evaluates to it at the four sites of a block. -/
theorem siteClassesFollowTheTable : Obligations.SiteClassesFollowTheTable := by
  refine ⟨⟨rfl, rfl, rfl, rfl, rfl⟩, fun x y => ⟨fun hy hx => ?_, fun hy hx => ?_, fun hy hx => ?_, fun hy hx => ?_⟩⟩
  all_goals
    have row (layout : Layout) := tableRow_of_parity layout hx hy
    exact ⟨row .rggb, row .grbg, row .gbrg, row .bggr⟩

/-! ### How the channels of neighbouring sites relate (R160) -/

/-- In a row and in a column of a block one of the two channels is G, and on a diagonal without G stand R and B. -/
theorem layout_at_block (layout : Layout) :
    ∀ px < 2, ∀ py < 2,
      (layout.at py px ≠ .g → layout.at py (1 - px) = .g ∧ layout.at (1 - py) px = .g ∧
        layout.at (1 - py) (1 - px) ≠ .g ∧ layout.at (1 - py) (1 - px) ≠ layout.at py px) ∧
      (layout.at py px = .g → layout.at py (1 - px) ≠ .g) := by
  cases layout <;> decide

section
variable {layout : Layout} {x y : Nat}

/-- R and B sites have G sites beside, above and below them, and the other of R and B at their corners. -/
theorem native_around_of_ne_g (notGreen : native layout x y ≠ .g) :
    native layout (x + 1) y = .g ∧ native layout x (y + 1) = .g ∧
      native layout (x + 1) (y + 1) ≠ .g ∧ native layout (x + 1) (y + 1) ≠ native layout x y := by
  have flipX : (x + 1) % 2 = 1 - x % 2 := by omega
  have flipY : (y + 1) % 2 = 1 - y % 2 := by omega
  obtain ⟨around, -⟩ := layout_at_block layout (x % 2) (by omega) (y % 2) (by omega)
  simpa only [native, flipX, flipY] using around notGreen

theorem native_beside_ne_g (green : native layout x y = .g) : native layout (x + 1) y ≠ .g := by
  have flipX : (x + 1) % 2 = 1 - x % 2 := by omega
  obtain ⟨-, beside⟩ := layout_at_block layout (x % 2) (by omega) (y % 2) (by omega)
  simpa only [native, flipX] using beside green

end

/-- R and B are the only channels besides G. -/
theorem channel_eq_of_ne {c d e : Channel} (hc : c ≠ .g) (hd : d ≠ .g) (he : e ≠ .g) (hce : c ≠ e) (hde : d ≠ e) :
    d = c := by
  grind [cases Channel]

/-! ### The channel at each offset of a class (R162, R163) -/

/-- The class of a site says where its target channel stands: on the site, beside, below or at the corner. The offsets
`-1` and `1` differ by two sites, so the one below or to the right stands for both. -/
theorem siteClass_spec (layout : Layout) (x y : Nat) (c : Channel) :
    (siteClass layout x y c = .own ∧ native layout x y = c) ∨
      (siteClass layout x y c = .cross ∧ native layout (x + 1) y = c ∧ native layout x (y + 1) = c) ∨
      (siteClass layout x y c = .diag ∧ native layout (x + 1) (y + 1) = c) ∨
      (siteClass layout x y c = .lineH ∧ native layout (x + 1) y = c) ∨
      (siteClass layout x y c = .lineV ∧ native layout x (y + 1) = c) := by
  unfold siteClass
  split_ifs with own toGreen notGreen beside
  · exact .inl ⟨rfl, own⟩
  · subst toGreen
    obtain ⟨right, below, -⟩ := native_around_of_ne_g own
    exact .inr (.inl ⟨rfl, right, below⟩)
  · obtain ⟨-, -, corner, opposite⟩ := native_around_of_ne_g notGreen
    exact .inr (.inr (.inl ⟨rfl, channel_eq_of_ne toGreen corner notGreen (Ne.symm own) opposite⟩))
  · exact .inr (.inr (.inr (.inl ⟨rfl, beside⟩)))
  · have right : native layout (x + 1) y ≠ .g := native_beside_ne_g (not_not.1 notGreen)
    obtain ⟨-, -, corner, opposite⟩ := native_around_of_ne_g right
    have below : native layout (x + 1 + 1) (y + 1) = native layout x (y + 1) := native_congr layout (by omega) rfl
    rw [below] at corner opposite
    exact .inr (.inr (.inr (.inr ⟨rfl, channel_eq_of_ne toGreen corner right (Ne.symm beside) opposite⟩)))

/-- Any site with the parities of the neighbour at an offset of the class samples the target channel. -/
theorem native_of_mem_offsets {layout : Layout} {x y x' y' : Nat} {c : Channel} {offset : Int × Int}
    (mem : offset ∈ (siteClass layout x y c).offsets) (hx : (x' : Int) % 2 = ((x : Int) + offset.1) % 2)
    (hy : (y' : Int) % 2 = ((y : Int) + offset.2) % 2) : native layout x' y' = c := by
  rcases siteClass_spec layout x y c with
    ⟨cls, site⟩ | ⟨cls, right, below⟩ | ⟨cls, corner⟩ | ⟨cls, right⟩ | ⟨cls, below⟩
  all_goals
    rw [cls] at mem
    simp only [SiteClass.offsets, List.mem_cons, List.not_mem_nil, or_false] at mem
  case inl =>
    subst mem
    exact (native_congr layout (by omega) (by omega)).trans site
  case inr.inl =>
    rcases mem with rfl | rfl | rfl | rfl
    · exact (native_congr layout (by omega) (by omega)).trans below
    · exact (native_congr layout (by omega) (by omega)).trans right
    · exact (native_congr layout (by omega) (by omega)).trans right
    · exact (native_congr layout (by omega) (by omega)).trans below
  case inr.inr.inl =>
    rcases mem with rfl | rfl | rfl | rfl <;>
      exact (native_congr layout (by omega) (by omega)).trans corner
  case inr.inr.inr.inl =>
    rcases mem with rfl | rfl <;> exact (native_congr layout (by omega) (by omega)).trans right
  case inr.inr.inr.inr =>
    rcases mem with rfl | rfl <;> exact (native_congr layout (by omega) (by omega)).trans below

/-! ### MIRROR keeps the parity of a neighbour's coordinate (R165) -/

theorem offset_bounds {cls : SiteClass} {offset : Int × Int} (mem : offset ∈ cls.offsets) :
    (-1 ≤ offset.1 ∧ offset.1 ≤ 1) ∧ (-1 ≤ offset.2 ∧ offset.2 ≤ 1) := by
  have bounds : ∀ o ∈ cls.offsets, (-1 ≤ o.1 ∧ o.1 ≤ 1) ∧ (-1 ≤ o.2 ∧ o.2 ≤ 1) := by cases cls <;> decide
  exact bounds offset mem

/-- The reflections `i ↦ -i` and `i ↦ 2 * (n - 1) - i` both keep the parity. -/
theorem mirrorIdx_parity {n : Nat} {i : Int} (large : 2 ≤ n) (low : -1 ≤ i) (high : i ≤ n) :
    (mirrorIdx i n : Int) % 2 = i % 2 := by
  unfold mirrorIdx
  split_ifs <;> omega

/-- Settles O52: MIRROR maps a neighbour to a site of the same parities, which samples the target channel. -/
theorem mirrorSamplesTheSameChannel : Obligations.MirrorSamplesTheSameChannel := by
  intro a x y c offset mirror wide tall insideX insideY mem
  obtain ⟨⟨left, right⟩, above, below⟩ := offset_bounds mem
  rw [mirror]
  exact native_of_mem_offsets mem (mirrorIdx_parity wide (by omega) (by omega))
    (mirrorIdx_parity tall (by omega) (by omega))

/-! ### A pattern code without a layout (R160, R171) -/

theorem layoutOfPattern_eq_none_iff (code : Byte) : layoutOfPattern code = none ↔ 3 < code.toNat := by
  match h : code.toNat with
  | 0 | 1 | 2 | 3 => simp [layoutOfPattern, h]
  | n + 4 => simp [layoutOfPattern, h]

theorem demosaicStage_of_unsupported {s : State} (unsupported : layoutOfPattern s.cfgDemosaic.pattern = none) :
    s.demosaicStage = s.finish .unsupportedPattern (s.cfgDemosaic.pattern.setWidth 32) 0 := by
  rcases s.demosaicInto_spec s.cfgDim with ⟨-, rejected⟩ | ⟨layout, supported, -⟩
  · rw [State.demosaicStage, rejected]
  · rw [unsupported] at supported
    contradiction

/-- Settles O49: a code above 3 has no layout, and the engine step ends before it writes; the codes and blocks are
evaluated. -/
theorem demosaicRejectsUnsupportedPatterns : Obligations.DemosaicRejectsUnsupportedPatterns := by
  intro s
  refine ⟨fun turn unsupported => ?_, layoutOfPattern_eq_none_iff _, by decide, by decide, fun _ _ _ => rfl⟩
  rw [exec_demosaic, State.asCommand_engine turn,
    demosaicStage_of_unsupported ((layoutOfPattern_eq_none_iff _).2 unsupported)]

end Sys2Proof.Proofs.Demosaic
end

section
/-! Proofs of the statements on 44_capture_control.md: NOP (R202), ABORT (R204), and the stages CHECK and OPEN of
CAPTURE (R206, R207). -/

namespace Sys2Proof.Proofs.CaptureControl

open Sys2Proof Sys2Proof.Machine Sys2Proof.Safety Sys2Proof.Proofs.LinkRequest Sys2Proof.Proofs.Demosaic

/-! ### The end of a CAPTURE (R209) -/

/-- All that the failure of a CAPTURE does. -/
theorem failCapture_eq (s : State) (code : ErrCode) (info0 info1 : Word) :
    s.failCapture code info0 info1 =
      State.finish
        { s with
          status :=
            { s.status with
              linkOpen := if s.openedHere then false else s.status.linkOpen
              seqState := failureSeq code s.status.seqState }
          linkLog := if s.openedHere then s.linkLog ++ [.linkClose] else s.linkLog
          openedHere := false }
        code info0 info1 := by
  rw [State.failCapture, State.captureCleanUp_spec, State.setSeq]

theorem captureCleanUp_of_not_openedHere {s : State} (notOpened : s.openedHere = false) : s.captureCleanUp = s := by
  rw [State.captureCleanUp, if_neg (by simp [notOpened])]

/-- A CAPTURE that has not opened the link has nothing to clean up. -/
theorem failCapture_of_not_openedHere {s : State} (notOpened : s.openedHere = false) (code : ErrCode)
    (info0 info1 : Word) :
    s.failCapture code info0 info1 = (s.setSeq (failureSeq code s.status.seqState)).finish code info0 info1 := by
  rw [State.failCapture, captureCleanUp_of_not_openedHere notOpened]

/-! ### The stages CHECK and OPEN of CAPTURE (R206, R207) -/

theorem captureStage_of_check {s : State} (phase : s.capPhase = .check) : s.captureStage = s.captureCheck := by
  rw [State.captureStage, phase]

theorem captureStage_of_openLink {s : State} (phase : s.capPhase = .openLink) : s.captureStage = s.captureOpen := by
  rw [State.captureStage, phase]

theorem captureCheck_of_unsupported {s : State} (unsupported : 3 < s.cfgDemosaic.pattern.toNat) :
    s.captureCheck = s.failCapture .unsupportedPattern (s.cfgDemosaic.pattern.setWidth 32) 0 := by
  rw [State.captureCheck, (layoutOfPattern_eq_none_iff _).2 unsupported, State.captureUnsupported]

theorem captureCheck_of_supported {s : State} (supported : s.cfgDemosaic.pattern.toNat ≤ 3) :
    s.captureCheck = s.setPhase .openLink := by
  have hasLayout : layoutOfPattern s.cfgDemosaic.pattern ≠ none := fun noLayout =>
    absurd ((layoutOfPattern_eq_none_iff _).1 noLayout) (Nat.not_lt.2 supported)
  obtain ⟨layout, found⟩ := Option.ne_none_iff_exists'.1 hasLayout
  rw [State.captureCheck, found]

theorem captureOpen_of_open {s : State} (isOpen : s.status.linkOpen = true) :
    s.captureOpen = s.setPhase .resetLink := by
  rw [State.captureOpen, if_pos isOpen]

/-- On a closed link the answer to `LinkOpen` decides. -/
theorem captureOpen_of_closed {s : State} {ok : Bool} {acks : List Bool} {k : Nat}
    (closed : s.status.linkOpen = false) (acked : Acked s ok acks k) :
    s.captureOpen =
      if ok then
        { s with
          status := { s.status with linkOpen := true }
          linkLog := s.linkLog ++ [.linkOpen], linkAcks := acks, draws := k
          openedHere := true, capPhase := .resetLink }
      else
        State.failCapture { s with linkLog := s.linkLog ++ [.linkOpen], linkAcks := acks, draws := k }
          .deviceUnavailable 1 s.frameLen := by
  rw [State.captureOpen, if_neg (by simp [closed]), linkAck_of_acked acked]
  cases ok <;> rfl

/-- Settles O55: CHECK rejects a code without a layout before any link traffic, and OPEN uses an open link or opens a
closed one. -/
theorem captureChecksThePatternThenOpens : Obligations.CaptureChecksThePatternThenOpens := by
  intro s turn
  rw [exec_capture, State.asCommand_engine turn]
  refine ⟨fun phase notOpened unsupported => ?_, fun phase supported => ?_, fun phase isOpen => ?_,
    fun phase closed ok acks k acked => ?_⟩
  · rw [captureStage_of_check phase, captureCheck_of_unsupported unsupported,
      failCapture_of_not_openedHere notOpened, State.setSeq, failureSeq]
  · rw [captureStage_of_check phase, captureCheck_of_supported supported, State.setPhase]
  · rw [captureStage_of_openLink phase, captureOpen_of_open isOpen, State.setPhase]
  · rw [captureStage_of_openLink phase, captureOpen_of_closed closed acked]

/-! ### ABORT (R204) -/

theorem issue_abort (s : State) : s.issue 0x00000009 = s := by
  have isAbort : decodeCommand 0x00000009 = some .abort := rfl
  rw [State.issue, isAbort]

theorem regWrite_abort_of_idle {s : State} (idle : s.status.busy = false) : s.regWrite 0 0x00000009 = s := by
  rw [State.regWrite_idle idle, if_pos rfl, issue_abort]

theorem regWrite_abort_of_busy {s : State} (busy : s.status.busy = true) :
    s.regWrite 0 0x00000009 = s.abortRunning := by
  rw [State.regWrite_busy busy, if_pos ⟨rfl, rfl⟩]

/-- A command without an accumulation window ends with zero diagnostic words. -/
theorem abortRunning_of_other {s : State} (notAccumulate : s.curOp ≠ 0x03) (notCapture : s.curOp ≠ 0x06) :
    s.abortRunning = s.finish .aborted 0 0 := by
  rw [State.abortRunning, State.abortInfo, if_neg (not_or_intro notAccumulate notCapture)]
  exact if_neg notCapture

theorem abortRunning_of_accumulate {s : State} (accumulate : s.curOp = 0x03) :
    s.abortRunning = s.finish .aborted s.accCount s.accExpected := by
  rw [State.abortRunning, State.abortInfo, if_pos (.inl accumulate)]
  exact if_neg (by rw [accumulate]; decide)

/-- The abort of a CAPTURE is one of its failures. -/
theorem abortRunning_of_capture {s : State} (capture : s.curOp = 0x06) :
    s.abortRunning = s.failCapture .aborted s.accCount s.accExpected := by
  rw [State.abortRunning, State.abortInfo, if_pos (.inr capture)]
  exact if_pos capture

/-- Settles O30: idle ABORT does nothing, and busy it ends the running command by what `CUR_OP` says is running. -/
theorem abortStopsTheRunningCommand : Obligations.AbortStopsTheRunningCommand := by
  refine ⟨rfl, fun s => ?_⟩
  rw [exec_abort]
  refine ⟨fun idle => ?_, fun busy notAccumulate notCapture => ?_, fun busy accumulate => ?_,
    fun busy capture => ?_⟩
  · rw [regWrite_abort_of_idle idle]
  · rw [regWrite_abort_of_busy busy, abortRunning_of_other notAccumulate notCapture]
  · rw [regWrite_abort_of_busy busy, abortRunning_of_accumulate accumulate]
  · rw [regWrite_abort_of_busy busy, abortRunning_of_capture capture, failCapture_eq, failureSeq]

/-! ### NOP (R202) -/

theorem issue_nop (s : State) : s.issue 0x00000000 = (s.bookkeep 0x00000000).finishOk := by
  have isNop : decodeCommand 0x00000000 = some .nop := rfl
  rw [State.issue, isNop]

/-- Settles O28: the issue of NOP is its bookkeeping, and the success that ends it. -/
theorem nopCompletesAtOnce : Obligations.NopCompletesAtOnce := by
  refine ⟨rfl, fun s idle => ?_⟩
  have opcode : (0x00000000 : Word).extractLsb' 0 8 = 0 := rfl
  rw [exec_nop, State.regWrite_idle idle, if_pos rfl, issue_nop, State.finishOk, State.finish, State.bookkeep, opcode]

end Sys2Proof.Proofs.CaptureControl
end

section
/-! Proofs of the statements on 70_reset_and_hazards.md: the values that power-on and every later reset give the registers
and the hidden state (R260). -/

namespace Sys2Proof.Proofs.Reset

open Sys2Proof Sys2Proof.Machine

/-! ### The reset event -/

/-- The event of a reset is the platform's reset of the state without it, whatever the state. -/
theorem step_of_reset {s : State} {rest : List Event} (next : s.schedule = .reset :: rest) :
    step s = .next (State.platformReset { s with schedule := rest }) := by
  rw [step, runNext, next]

/-- What a platform reset keeps, no register reads: not the memories, the ports, or the order of events. -/
@[simp] theorem regRead_platformReset (s : State) (index : BitVec 4) :
    s.platformReset.regRead index = State.reset.regRead index := by
  simp [State.regRead]

/-! ### The reset value of `CFG_DEMOSAIC` -/

/-- With both mode bits 0 the word is the code alone, whichever of the four codes `TARGET_PATTERN` stands for (R7). -/
theorem cfgDemosaicWord_of_pattern (p : Fin 4) :
    CfgDemosaic.word { pattern := BitVec.ofNat 8 p.val, border := .mirror, rounding := .halfUp } =
      BitVec.ofNat 32 p.val := by
  revert p
  decide

theorem regRead_reset_cfgDemosaic : State.reset.regRead 3 = BitVec.ofNat 32 Config.targetPattern.val :=
  cfgDemosaicWord_of_pattern Config.targetPattern

/-! ### The table (R260) -/

/-- Settles O8: the power-on state evaluates to the table, and after a reset event the registers and the hidden state are
those of the power-on state. -/
theorem resetSetsEveryRegister : Obligations.ResetSetsEveryRegister := by
  unfold Obligations.ResetSetsEveryRegister
  intro asInTheTable
  have powerOn : asInTheTable State.reset :=
    ⟨rfl, rfl, rfl, regRead_reset_cfgDemosaic, rfl, rfl, rfl, rfl, rfl, rfl, rfl, rfl, rfl, rfl, rfl, rfl,
      rfl, rfl, rfl, rfl, rfl⟩
  refine ⟨powerOn, fun s rest next => ⟨_, step_of_reset next, ?_⟩⟩
  simpa only [asInTheTable, regRead_platformReset, State.platformReset_curOp, State.platformReset_capPhase,
    State.platformReset_openedHere, State.platformReset_accMax, State.platformReset_accHdrPending] using powerOn

end Sys2Proof.Proofs.Reset
end

section
/-! Proofs of the statements on 30_encoding.md that tie the decoder and the encoder together: each undoes the other
(R82, R84-R87), and the words written out from the spec (R92). -/

namespace Sys2Proof.Proofs.Codec

open Sys2Proof Sys2Proof.Machine

/-! ### Words as numbers -/

/-- A concatenation read as a number. -/
theorem toNat_append_eq {m n : Nat} (x : BitVec m) (y : BitVec n) : (x ++ y).toNat = x.toNat * 2 ^ n + y.toNat := by
  rw [BitVec.toNat_append, ← Nat.shiftLeft_add_eq_or_of_lt y.isLt, Nat.shiftLeft_eq]

/-- A field of a word read as a number. -/
theorem toNat_extractLsb'_eq {w : Nat} (start len : Nat) (v : BitVec w) :
    (v.extractLsb' start len).toNat = v.toNat / 2 ^ start % 2 ^ len := by
  rw [BitVec.extractLsb'_toNat, Nat.shiftRight_eq_div_pow]

/-! ### The fields of a descriptor (R84) -/

/-- A descriptor read as a number: each field at its place, the reserved bits 0. -/
theorem hostWord_toNat (kind sel : BitVec 2) (addr : BitVec 24) (data : Word) :
    (hostWord kind sel addr data).toNat =
      kind.toNat * 2 ^ 62 + sel.toNat * 2 ^ 60 + addr.toNat * 2 ^ 32 + data.toNat := by
  unfold hostWord
  refine (toNat_append_eq _ _).trans ?_
  simp only [toNat_append_eq, BitVec.ofNat_eq_ofNat, BitVec.toNat_ofNat]
  omega

section
variable (kind sel : BitVec 2) (addr : BitVec 24) (data : Word)

@[simp] theorem hostWord_kind : (hostWord kind sel addr data).extractLsb' 62 2 = kind := by
  apply BitVec.eq_of_toNat_eq
  rw [toNat_extractLsb'_eq, hostWord_toNat]
  omega

@[simp] theorem hostWord_sel : (hostWord kind sel addr data).extractLsb' 60 2 = sel := by
  apply BitVec.eq_of_toNat_eq
  rw [toNat_extractLsb'_eq, hostWord_toNat]
  omega

@[simp] theorem hostWord_reserved : (hostWord kind sel addr data).extractLsb' 56 4 = 0 := by
  apply BitVec.eq_of_toNat_eq
  rw [toNat_extractLsb'_eq, hostWord_toNat]
  simp only [BitVec.ofNat_eq_ofNat, BitVec.toNat_ofNat]
  omega

@[simp] theorem hostWord_addr : (hostWord kind sel addr data).extractLsb' 32 24 = addr := by
  apply BitVec.eq_of_toNat_eq
  rw [toNat_extractLsb'_eq, hostWord_toNat]
  omega

@[simp] theorem hostWord_data : (hostWord kind sel addr data).extractLsb' 0 32 = data := by
  apply BitVec.eq_of_toNat_eq
  rw [toNat_extractLsb'_eq, hostWord_toNat]
  omega

end

/-- A descriptor whose reserved bits are 0 is made of its fields. -/
theorem hostWord_fields {t : BitVec 64} (reserved : t.extractLsb' 56 4 = 0) :
    hostWord (t.extractLsb' 62 2) (t.extractLsb' 60 2) (t.extractLsb' 32 24) (t.extractLsb' 0 32) = t := by
  have zeroBits := congrArg BitVec.toNat reserved
  apply BitVec.eq_of_toNat_eq
  simp only [hostWord_toNat, toNat_extractLsb'_eq, BitVec.ofNat_eq_ofNat, BitVec.toNat_ofNat] at zeroBits ⊢
  omega

/-! ### A field that is narrower than its place -/

/-- Zero-extension leaves the high bits 0. -/
theorem extractLsb'_setWidth_high {n k w : Nat} (width : n + k = w) (x : BitVec n) :
    (x.setWidth w).extractLsb' n k = 0 := by
  apply BitVec.eq_of_toNat_eq
  have small : x.toNat < 2 ^ n := x.isLt
  have wide : x.toNat < 2 ^ w := small.trans_le (Nat.pow_le_pow_right two_pos (by omega))
  rw [toNat_extractLsb'_eq, BitVec.toNat_setWidth, Nat.mod_eq_of_lt wide, Nat.div_eq_of_lt small]
  simp

theorem extractLsb'_setWidth_low {n w : Nat} (width : n ≤ w) (x : BitVec n) :
    (x.setWidth w).extractLsb' 0 n = x := by
  apply BitVec.eq_of_toNat_eq
  have wide : x.toNat < 2 ^ w := x.isLt.trans_le (Nat.pow_le_pow_right two_pos width)
  rw [toNat_extractLsb'_eq, BitVec.toNat_setWidth, Nat.mod_eq_of_lt wide, pow_zero, Nat.div_one,
    Nat.mod_eq_of_lt x.isLt]

/-- A word whose high bits are 0 is its low bits zero-extended. -/
theorem setWidth_extractLsb'_of_high_zero {n k w : Nat} (width : n + k = w) {v : BitVec w}
    (high : v.extractLsb' n k = 0) : (v.extractLsb' 0 n).setWidth w = v := by
  have bound : v.toNat / 2 ^ n < 2 ^ k := by
    rw [Nat.div_lt_iff_lt_mul (by positivity), mul_comm, ← pow_add, width]
    exact v.isLt
  have small : v.toNat < 2 ^ n := by
    have zero := congrArg BitVec.toNat high
    rw [toNat_extractLsb'_eq, Nat.mod_eq_of_lt bound] at zero
    exact (Nat.div_eq_zero_iff_lt (by positivity)).1 (by simpa using zero)
  apply BitVec.eq_of_toNat_eq
  rw [BitVec.toNat_setWidth, toNat_extractLsb'_eq, pow_zero, Nat.div_one, Nat.mod_eq_of_lt small,
    Nat.mod_eq_of_lt v.isLt]

/-! ### The selector of a space (R84) -/

@[simp] theorem spaceOfSelector_selector (space : Space) : spaceOfSelector space.selector = some space := by
  cases space <;> rfl

theorem selector_of_spaceOfSelector {sel : BitVec 2} {space : Space} (named : spaceOfSelector sel = some space) :
    space.selector = sel := by
  revert sel
  cases space <;> decide

/-! ### Decoding after encoding -/

@[simp] theorem decodeHost_rr (index : BitVec 4) :
    decodeHost (hostWord 0 0 (index.setWidth 24) 0) = some (.rr index) := by
  simp [decodeHost, extractLsb'_setWidth_high, extractLsb'_setWidth_low]

@[simp] theorem decodeHost_rw (index : BitVec 4) (data : Word) :
    decodeHost (hostWord 1 0 (index.setWidth 24) data) = some (.rw index data) := by
  simp [decodeHost, extractLsb'_setWidth_high, extractLsb'_setWidth_low]

@[simp] theorem decodeHost_mr (space : Space) (addr : BitVec 18) :
    decodeHost (hostWord 2 space.selector (addr.setWidth 24) 0) = some (.mr space addr) := by
  simp [decodeHost, extractLsb'_setWidth_high, extractLsb'_setWidth_low]

@[simp] theorem decodeHost_mw (space : Space) (addr : BitVec 18) (data : Byte) :
    decodeHost (hostWord 3 space.selector (addr.setWidth 24) (data.setWidth 32)) = some (.mw space addr data) := by
  simp [decodeHost, extractLsb'_setWidth_high, extractLsb'_setWidth_low]

theorem request_opcode (opcode param : Byte) : (opcode ++ param).extractLsb' 8 8 = opcode :=
  BitVec.extractLsb'_append_eq_left

theorem request_param (opcode param : Byte) : (opcode ++ param).extractLsb' 0 8 = param :=
  BitVec.extractLsb'_append_eq_right

/-- Settles O1: the ten command words are evaluated, a descriptor and a request give their fields back, and a response
has the length its header declares. -/
theorem decodeOfEncodeIsTheInstruction : Obligations.DecodeOfEncodeIsTheInstruction := by
  intro i wellFormed
  cases i with
  | nop | demosaic | parse | accumulate | sendRequest | linkReset | capture | linkOpen | linkClose | abort => rfl
  | rr index => simp only [encode, decode, decodeHost_rr]
  | rw index data => simp only [encode, decode, decodeHost_rw]
  | mr space addr => simp only [encode, decode, decodeHost_mr]
  | mw space addr data => simp only [encode, decode, decodeHost_mw]
  | request opcode param => simp only [encode, decode, request_opcode, request_param]
  | response mode width height mosaic =>
    have length : mosaic.length = width.toNat * height.toNat := by simpa [Instr.wellFormed] using wellFormed
    simp only [encode, decode, decodeResponse, if_pos length]

/-! ### Encoding after decoding -/

/-- Each command is the encoding of its opcode, zero-extended (R82). -/
theorem encode_of_commandOfOp {op : Byte} {i : Instr} (named : commandOfOp op = some i) :
    i.wellFormed = true ∧ encode i = .cmd (op.setWidth 32) := by
  have number : op = BitVec.ofNat 8 op.toNat := by simp
  unfold commandOfOp at named
  split at named
  case h_11 => contradiction
  all_goals
    obtain rfl := Option.some.inj named
    rename_i code
    rw [number, code]
    exact ⟨rfl, rfl⟩

theorem encode_of_decodeCommand {v : Word} {i : Instr} (decoded : decodeCommand v = some i) :
    i.wellFormed = true ∧ encode i = .cmd v := by
  unfold decodeCommand at decoded
  split at decoded
  case isTrue high =>
    have word := setWidth_extractLsb'_of_high_zero (n := 8) rfl high
    rw [← word]
    exact encode_of_commandOfOp decoded
  case isFalse => contradiction

theorem encode_of_decodeHost {t : BitVec 64} {i : Instr} (decoded : decodeHost t = some i) :
    i.wellFormed = true ∧ encode i = .host t := by
  unfold decodeHost at decoded
  dsimp only at decoded
  split at decoded
  case isTrue => contradiction
  case isFalse reserved =>
  rw [← hostWord_fields (not_not.1 reserved)]
  generalize t.extractLsb' 62 2 = kind at decoded ⊢
  generalize t.extractLsb' 60 2 = sel at decoded ⊢
  generalize t.extractLsb' 32 24 = addr at decoded ⊢
  generalize t.extractLsb' 0 32 = data at decoded ⊢
  have kind_eq (n : Nat) (value : kind.toNat = n) : kind = BitVec.ofNat 2 n := by simp [← value]
  split at decoded
  case h_1 value =>
    obtain ⟨⟨rfl, high, rfl⟩, ⟨⟩⟩ := Option.ite_none_right_eq_some.1 decoded
    rw [kind_eq 0 value, encode, setWidth_extractLsb'_of_high_zero rfl high]
    exact ⟨rfl, rfl⟩
  case h_2 value =>
    obtain ⟨⟨rfl, high⟩, ⟨⟩⟩ := Option.ite_none_right_eq_some.1 decoded
    rw [kind_eq 1 value, encode, setWidth_extractLsb'_of_high_zero rfl high]
    exact ⟨rfl, rfl⟩
  case h_3 value =>
    obtain ⟨⟨high, rfl⟩, named⟩ := Option.ite_none_right_eq_some.1 decoded
    obtain ⟨space, selected, rfl⟩ := Option.map_eq_some_iff.1 named
    rw [kind_eq 2 value, encode, setWidth_extractLsb'_of_high_zero rfl high, selector_of_spaceOfSelector selected]
    exact ⟨rfl, rfl⟩
  case h_4 not0 not1 not2 =>
    obtain ⟨⟨high, highData⟩, named⟩ := Option.ite_none_right_eq_some.1 decoded
    obtain ⟨space, selected, rfl⟩ := Option.map_eq_some_iff.1 named
    have value : kind.toNat = 3 := by
      have := kind.isLt
      simp only [imp_false] at not0 not1 not2
      omega
    rw [kind_eq 3 value, encode, setWidth_extractLsb'_of_high_zero rfl high,
      setWidth_extractLsb'_of_high_zero rfl highData, selector_of_spaceOfSelector selected]
    exact ⟨rfl, rfl⟩

/-- Response bytes decode by position, at exactly the length their header declares (R87). -/
theorem decodeResponse_eq_some_iff (bytes : List Byte) (i : Instr) :
    decodeResponse bytes = some i ↔
      ∃ (mode width height : Byte) (mosaic : List Byte),
        bytes = mode :: width :: height :: mosaic ∧ mosaic.length = width.toNat * height.toNat ∧
          i = .response mode width height mosaic := by
  unfold decodeResponse
  split
  case h_1 mode width height mosaic =>
    rw [Option.ite_none_right_eq_some, Option.some_inj]
    constructor
    · rintro ⟨length, rfl⟩
      exact ⟨mode, width, height, mosaic, rfl, length, rfl⟩
    · rintro ⟨_, _, _, _, ⟨⟩, length, rfl⟩
      exact ⟨length, rfl⟩
  case h_2 short =>
    refine iff_of_false nofun ?_
    rintro ⟨mode, width, height, mosaic, rfl, -⟩
    exact short mode width height mosaic rfl

theorem decode_cmd_eq_ok_iff (v : Word) (i : Instr) : decode (.cmd v) = .ok i ↔ decodeCommand v = some i := by
  cases found : decodeCommand v <;> simp [decode, found]

theorem decode_host_eq_ok_iff (t : BitVec 64) (i : Instr) : decode (.host t) = .ok i ↔ decodeHost t = some i := by
  cases found : decodeHost t <;> simp [decode, found]

theorem decode_resp_eq_ok_iff (bytes : List Byte) (i : Instr) :
    decode (.resp bytes) = .ok i ↔ decodeResponse bytes = some i := by
  cases found : decodeResponse bytes <;> simp [decode, found]

theorem encode_of_decode {p : Packet} {i : Instr} (decoded : decode p = .ok i) :
    i.wellFormed = true ∧ encode i = p := by
  cases p with
  | cmd v => exact encode_of_decodeCommand ((decode_cmd_eq_ok_iff v i).1 decoded)
  | host t => exact encode_of_decodeHost ((decode_host_eq_ok_iff t i).1 decoded)
  | req16 w =>
    obtain rfl := Except.ok.inj decoded
    refine ⟨rfl, congrArg Packet.req16 ?_⟩
    exact (BitVec.extractLsb'_append_extractLsb'_eq_extractLsb' rfl).trans BitVec.extractLsb'_eq_self
  | resp bytes =>
    obtain ⟨mode, width, height, mosaic, rfl, length, rfl⟩ :=
      (decodeResponse_eq_some_iff bytes i).1 ((decode_resp_eq_ok_iff bytes i).1 decoded)
    exact ⟨by simp [Instr.wellFormed, length], rfl⟩

/-- Settles O2: each format's decoder answers only what encodes to the packet, and the responses that decode are those
of R87. -/
theorem encodeOfDecodeIsThePacket : Obligations.EncodeOfDecodeIsThePacket :=
  ⟨fun _ _ => encode_of_decode, fun bytes i =>
    (decode_resp_eq_ok_iff bytes i).trans (decodeResponse_eq_some_iff bytes i)⟩

/-- Settles O4: the nine packets are evaluated. -/
theorem writtenOutWordsDecode : Obligations.WrittenOutWordsDecode := by
  refine ⟨rfl, ?_, ?_, ?_, ?_, ?_, ?_, rfl, ?_⟩ <;> decide

end Sys2Proof.Proofs.Codec
end

section
/-! Proofs of the statements on 10_state.md and 20_memory.md: the bits of the register words (R25-R43), what the host's
register and byte accesses do while idle (R64, R66, R67), and what they do while a command runs (R71). -/

namespace Sys2Proof.Proofs.HostPort

open Sys2Proof Sys2Proof.Machine Sys2Proof.Proofs.Codec

/-! ### A field of a word, by the word's number -/

theorem extractLsb'_eq_of_toNat {w start len : Nat} {v : BitVec w} {x : BitVec len}
    (field : v.toNat / 2 ^ start % 2 ^ len = x.toNat) : v.extractLsb' start len = x := by
  apply BitVec.eq_of_toNat_eq
  rw [toNat_extractLsb'_eq, field]

theorem extractLsb'_eq_zero_of_toNat {w start len : Nat} {v : BitVec w} (field : v.toNat / 2 ^ start % 2 ^ len = 0) :
    v.extractLsb' start len = 0 :=
  extractLsb'_eq_of_toNat (field.trans BitVec.toNat_zero.symm)

theorem toNat_ofBool_getLsbD {w : Nat} (v : BitVec w) (k : Nat) :
    (BitVec.ofBool (v.getLsbD k)).toNat = v.toNat / 2 ^ k % 2 := by
  rw [BitVec.toNat_ofBool, BitVec.getLsbD, Nat.toNat_testBit]

theorem getLsbD_eq_of_toNat {w k : Nat} {v : BitVec w} {b : Bool}
    (bit : v.toNat / 2 ^ k % 2 = (BitVec.ofBool b).toNat) : v.getLsbD k = b := by
  rw [← toNat_ofBool_getLsbD] at bit
  generalize v.getLsbD k = c at bit ⊢
  revert b c
  decide

/-- Masking keeps the low bits. -/
theorem toNat_and_mask {w : Nat} (v mask : BitVec w) (n : Nat) (low : mask.toNat = 2 ^ n - 1) :
    (v &&& mask).toNat = v.toNat % 2 ^ n := by
  rw [BitVec.toNat_and, low, Nat.and_two_pow_sub_one_eq_mod]

/-! ### The register words (R25, R32-R34, R39, R41, R43) -/

theorem statusWord_toNat (f : Status) :
    (Status.word f).toNat =
      (BitVec.ofBool f.busy).toNat + 2 * (BitVec.ofBool f.done).toNat + 4 * (BitVec.ofBool f.ignored).toNat +
        8 * (BitVec.ofBool f.linkOpen).toNat + 16 * (ErrCode.code f.err).toNat + 256 * f.lastOp.toNat +
        65536 * (SeqState.code f.seqState).toNat := by
  unfold Status.word
  refine (toNat_append_eq _ _).trans ?_
  simp only [toNat_append_eq, BitVec.ofNat_eq_ofNat, BitVec.toNat_ofNat]
  omega

theorem dimWord_toNat (d : Dim) : (Dim.word d).toNat = d.width.toNat + 256 * d.height.toNat := by
  unfold Dim.word
  refine (toNat_append_eq _ _).trans ?_
  simp only [toNat_append_eq, BitVec.ofNat_eq_ofNat, BitVec.toNat_ofNat]
  omega

theorem cfgDemosaicWord_toNat (c : CfgDemosaic) :
    (CfgDemosaic.word c).toNat =
      c.pattern.toNat + 256 * (BitVec.ofBool (Border.bit c.border)).toNat +
        512 * (BitVec.ofBool (Rounding.bit c.rounding)).toNat := by
  unfold CfgDemosaic.word
  refine (toNat_append_eq _ _).trans ?_
  simp only [toNat_append_eq, BitVec.ofNat_eq_ofNat, BitVec.toNat_ofNat]
  omega

theorem cfgAccWord_toNat (c : CfgAcc) :
    (CfgAcc.word c).toNat =
      c.maxAttempts.toNat + 65536 * (BitVec.ofBool (LengthPolicy.bit c.lengthPolicy)).toNat := by
  unfold CfgAcc.word
  refine (toNat_append_eq _ _).trans ?_
  simp only [toNat_append_eq, BitVec.ofNat_eq_ofNat, BitVec.toNat_ofNat]
  omega

theorem hdrWord_toNat (h : Hdr) :
    (Hdr.word h).toNat =
      h.mode.toNat + 256 * h.width.toNat + 65536 * h.height.toNat + 16777216 * (BitVec.ofBool h.valid).toNat := by
  unfold Hdr.word
  refine (toNat_append_eq _ _).trans ?_
  simp only [toNat_append_eq, BitVec.ofNat_eq_ofNat, BitVec.toNat_ofNat]
  omega

theorem reqWord_toNat (r : Req) : (Req.word r).toNat = r.opcode.toNat + 256 * r.param.toNat := by
  unfold Req.word
  refine (toNat_append_eq _ _).trans ?_
  simp only [toNat_append_eq, BitVec.ofNat_eq_ofNat, BitVec.toNat_ofNat]
  omega

@[simp] theorem regRead_status (s : State) : s.regRead 1 = Status.word s.status := rfl
@[simp] theorem regRead_hdr (s : State) : s.regRead 9 = Hdr.word s.hdr := rfl
@[simp] theorem regRead_outDim (s : State) : s.regRead 13 = Dim.word s.outDim := rfl

/-- Settles O20: each field of the word's number is read back at its place, and the codes are evaluated. -/
theorem statusFieldsStandInTheirBits : Obligations.StatusFieldsStandInTheirBits := by
  refine ⟨fun s => ?_, rfl, rfl, rfl⟩
  rw [regRead_status]
  refine ⟨getLsbD_eq_of_toNat ?_, getLsbD_eq_of_toNat ?_, getLsbD_eq_of_toNat ?_, getLsbD_eq_of_toNat ?_,
    extractLsb'_eq_of_toNat ?_, extractLsb'_eq_of_toNat ?_, extractLsb'_eq_of_toNat ?_,
    extractLsb'_eq_zero_of_toNat ?_⟩
  all_goals
    rw [statusWord_toNat]
    omega

/-- Settles O21: each field of the two words' numbers is read back at its place. -/
theorem headerFieldsStandInTheirBits : Obligations.HeaderFieldsStandInTheirBits := by
  intro s
  rw [regRead_hdr, regRead_outDim]
  have hdr := hdrWord_toNat s.hdr
  have outDim := dimWord_toNat s.outDim
  refine ⟨extractLsb'_eq_of_toNat ?_, extractLsb'_eq_of_toNat ?_, extractLsb'_eq_of_toNat ?_,
    getLsbD_eq_of_toNat ?_, extractLsb'_eq_zero_of_toNat ?_, extractLsb'_eq_of_toNat ?_,
    extractLsb'_eq_of_toNat ?_, extractLsb'_eq_zero_of_toNat ?_⟩
  all_goals omega

/-! ### Register reads (R66) -/

/-- Settles O19: a read answers the register's word, and the indices without fields read their 32 bits or 0. -/
theorem registerReadReturnsTheRegister : Obligations.RegisterReadReturnsTheRegister := fun s =>
  ⟨fun index => exec_rr s index, rfl, rfl, rfl, rfl, rfl, rfl, rfl, rfl, rfl⟩

/-! ### Register writes while idle (R67) -/

theorem exec_rw_of_idle {s : State} (idle : s.status.busy = false) {index : BitVec 4} (notCmd : index ≠ 0) (v : Word) :
    exec (.rw index v) s = .next (s.setRegister index v) := by
  rw [exec_rw, State.regWrite_idle idle, if_neg notCmd]

@[simp] theorem border_bit_ite (b : Bool) : Border.bit (if b then .clamp else .mirror) = b := by cases b <;> rfl

@[simp] theorem rounding_bit_ite (b : Bool) : Rounding.bit (if b then .trunc else .halfUp) = b := by cases b <;> rfl

@[simp] theorem lengthPolicy_bit_ite (b : Bool) : LengthPolicy.bit (if b then .headerFirst else .configured) = b := by
  cases b <;> rfl

/-- `CFG_DIM` written as a value reads as the low 16 bits of it. -/
theorem dimWord_of_value (v : Word) :
    Dim.word { width := v.extractLsb' 0 8, height := v.extractLsb' 8 8 } = v &&& 0x0000FFFF := by
  apply BitVec.eq_of_toNat_eq
  rw [dimWord_toNat, toNat_and_mask v _ 16 rfl]
  simp only [toNat_extractLsb'_eq]
  omega

theorem reqWord_of_value (v : Word) :
    Req.word { opcode := v.extractLsb' 0 8, param := v.extractLsb' 8 8 } = v &&& 0x0000FFFF := by
  apply BitVec.eq_of_toNat_eq
  rw [reqWord_toNat, toNat_and_mask v _ 16 rfl]
  simp only [toNat_extractLsb'_eq]
  omega

theorem cfgDemosaicWord_of_value (v : Word) :
    CfgDemosaic.word
        { pattern := v.extractLsb' 0 8
          border := if v.getLsbD 8 then .clamp else .mirror
          rounding := if v.getLsbD 9 then .trunc else .halfUp } =
      v &&& 0x000003FF := by
  apply BitVec.eq_of_toNat_eq
  rw [cfgDemosaicWord_toNat, toNat_and_mask v _ 10 rfl, border_bit_ite, rounding_bit_ite]
  simp only [toNat_extractLsb'_eq, toNat_ofBool_getLsbD]
  omega

theorem cfgAccWord_of_value (v : Word) :
    CfgAcc.word
        { maxAttempts := v.extractLsb' 0 16
          lengthPolicy := if v.getLsbD 16 then .headerFirst else .configured } =
      v &&& 0x0001FFFF := by
  apply BitVec.eq_of_toNat_eq
  rw [cfgAccWord_toNat, toNat_and_mask v _ 17 rfl, lengthPolicy_bit_ite]
  simp only [toNat_extractLsb'_eq, toNat_ofBool_getLsbD]
  omega

/-- Settles O22: each write sets the one register, whose word is then the value without its reserved bits. -/
theorem configurationWritesReadBack : Obligations.ConfigurationWritesReadBack := by
  intro s v idle
  have write {index : BitVec 4} (notCmd : index ≠ 0) := exec_rw_of_idle idle notCmd v
  exact ⟨⟨_, write (by decide), rfl, dimWord_of_value v⟩, ⟨_, write (by decide), rfl, cfgDemosaicWord_of_value v⟩,
    ⟨_, write (by decide), rfl, cfgAccWord_of_value v⟩, ⟨_, write (by decide), rfl, rfl⟩,
    ⟨_, write (by decide), rfl, reqWord_of_value v⟩⟩

/-- A register that is read-only or reserved takes no write (R23). -/
theorem setRegister_of_readOnly (s : State) {index : BitVec 4} (v : Word)
    (readOnly : index ∈ [1, 6, 7, 8, 9, 11, 12, 13, 14, 15]) : s.setRegister index v = s := by
  simp only [List.mem_cons, List.not_mem_nil, or_false] at readOnly
  rcases readOnly with rfl | rfl | rfl | rfl | rfl | rfl | rfl | rfl | rfl | rfl <;> rfl

/-- Settles O23: none of these indices is `CMD`, and none takes the write. -/
theorem readOnlyWritesHaveNoEffect : Obligations.ReadOnlyWritesHaveNoEffect := by
  intro s index v idle readOnly
  have notCmd : index ≠ 0 := by
    rintro rfl
    exact absurd readOnly (by decide)
  rw [exec_rw_of_idle idle notCmd, setRegister_of_readOnly s v readOnly]

/-! ### Byte reads (R64) -/

theorem memRead_of_size_le (s : State) {space : Space} {addr : Nat} (out : spaceSize space ≤ addr) :
    s.memRead space addr = { s with hostReply := 0 } := by
  rw [State.memRead, if_pos out]

theorem memRead_of_written {s : State} {space : Space} {addr : Nat} (inRange : addr < spaceSize space)
    (busy : s.status.busy = true) (writes : writesSpace s.curOp space = true) :
    s.memRead space addr = { s with hostReply := (Config.busyByte s.draws).setWidth 32, draws := s.draws + 1 } := by
  rw [State.memRead, if_neg (Nat.not_le.2 inRange), if_pos ⟨busy, writes⟩]

theorem memRead_of_stable {s : State} {space : Space} {addr : Nat} (inRange : addr < spaceSize space)
    (stable : s.status.busy = false ∨ writesSpace s.curOp space = false) :
    s.memRead space addr = { s with hostReply := (s.peek space addr).setWidth 32 } := by
  rw [State.memRead, if_neg (Nat.not_le.2 inRange), if_neg]
  rintro ⟨busy, writes⟩
  simp [busy, writes] at stable

/-- Settles O25: out of range, drawn, and read. -/
theorem byteReadReturnsTheByte : Obligations.ByteReadReturnsTheByte := by
  refine ⟨⟨rfl, rfl, rfl, rfl⟩, fun s space addr => ?_⟩
  rw [exec_mr]
  refine ⟨fun out => ?_, fun inRange busy writes => ?_, fun inRange stable => ?_⟩
  · rw [memRead_of_size_le s out]
  · rw [memRead_of_written inRange busy writes]
  · rw [memRead_of_stable inRange stable]

/-! ### Accesses while a command runs (R71) -/

/-- The spaces each command writes are those of the table. -/
theorem writesSpace_iff (op : Byte) (space : Space) :
    writesSpace op space = true ↔
      (op = 0x01 ∧ space = .rgb) ∨ (op = 0x02 ∧ space = .mosaic) ∨ (op = 0x03 ∧ space = .frame) ∨ op = 0x06 := by
  revert op
  cases space <;> decide

/-- Settles O24: a write that is not ABORT is dropped, registers are read as ever, and a byte of a space being written
is a draw. -/
theorem hostAccessWhileBusy : Obligations.HostAccessWhileBusy := by
  refine ⟨writesSpace_iff, fun s busy => ⟨fun index v notAbort => ?_, fun space addr v => ?_, exec_rr s,
    fun space addr inRange writes => ?_⟩⟩
  · rw [exec_rw, State.regWrite_busy busy, if_neg notAbort, State.dropWrite]
  · rw [exec_mw, Memory.memWrite_of_busy s space addr.toNat v busy, State.dropWrite]
  · rw [exec_mr, memRead_of_written inRange busy ((writesSpace_iff s.curOp space).2 writes)]

end Sys2Proof.Proofs.HostPort
end

section
/-! What one step of the machine can be, said once (R72, R216): the engine's stage, a packet's effect, a reset. After it
the proofs of the statements on steps and on the issue and the end of commands (R10, R81, R85, R200, R209, R261). -/

namespace Sys2Proof.Proofs.Steps

open Sys2Proof Sys2Proof.Machine Sys2Proof.Safety Sys2Proof.Proofs.Encoding Sys2Proof.Proofs.Codec
  Sys2Proof.Proofs.CaptureControl

/-! ### The opcode map (R82) -/

/-- The opcodes of the commands with engine steps, and the two without. -/
theorem commandOfOp_spec {op : Byte} {i : Instr} (named : commandOfOp op = some i) :
    (op = 0x00 ∧ i = .nop) ∨ (op = 0x01 ∧ i = .demosaic) ∨ (op = 0x02 ∧ i = .parse) ∨ (op = 0x03 ∧ i = .accumulate) ∨
      (op = 0x04 ∧ i = .sendRequest) ∨ (op = 0x05 ∧ i = .linkReset) ∨ (op = 0x06 ∧ i = .capture) ∨
      (op = 0x07 ∧ i = .linkOpen) ∨ (op = 0x08 ∧ i = .linkClose) ∨ (op = 0x09 ∧ i = .abort) := by
  have byte (n : Nat) (value : op.toNat = n) : op = BitVec.ofNat 8 n := by simp [← value]
  unfold commandOfOp at named
  split at named
  case h_11 => contradiction
  all_goals
    obtain rfl := Option.some.inj named
    rename_i value
    simp [byte _ value]

theorem engineInstr_eq_none_iff (op : Byte) : engineInstr op = none ↔ op = 0x00 ∨ 0x09 ≤ op.toNat := by
  revert op
  decide

/-- The opcodes that name a command with engine steps, and the command each names. -/
theorem engineInstr_spec {op : Byte} {i : Instr} (named : engineInstr op = some i) :
    (op = 0x01 ∧ i = .demosaic) ∨ (op = 0x02 ∧ i = .parse) ∨ (op = 0x03 ∧ i = .accumulate) ∨
      (op = 0x04 ∧ i = .sendRequest) ∨ (op = 0x05 ∧ i = .linkReset) ∨ (op = 0x06 ∧ i = .capture) ∨
      (op = 0x07 ∧ i = .linkOpen) ∨ (op = 0x08 ∧ i = .linkClose) := by
  unfold engineInstr at named
  split at named
  case h_1 | h_2 => contradiction
  case h_3 notNop notAbort =>
    have notNop : i ≠ .nop := by
      rintro rfl
      exact notNop named
    have notAbort : i ≠ .abort := by
      rintro rfl
      exact notAbort named
    simpa [notNop, notAbort] using commandOfOp_spec named

/-! ### The engine's step -/

/-- The engine's step of the command that `CUR_OP` names: one case for each stage of R216. -/
inductive EngineStep (s : State) : State → Prop
  | demosaic : s.curOp = 0x01 → EngineStep s s.demosaicStage
  | parse : s.curOp = 0x02 → EngineStep s s.parseStage
  | accumulateStart : s.curOp = 0x03 → s.accStarted = false → EngineStep s s.accumulateStart
  | accumulateRead : s.curOp = 0x03 → s.accStarted = true → EngineStep s s.accumulateRead
  | sendRequest : s.curOp = 0x04 → EngineStep s s.sendRequestStage
  | linkReset : s.curOp = 0x05 → EngineStep s s.linkResetStage
  | captureCheck : s.curOp = 0x06 → s.capPhase = .check → EngineStep s s.captureCheck
  | captureOpen : s.curOp = 0x06 → s.capPhase = .openLink → EngineStep s s.captureOpen
  | captureReset : s.curOp = 0x06 → s.capPhase = .resetLink → EngineStep s s.captureReset
  | captureSend : s.curOp = 0x06 → s.capPhase = .sendRequest → EngineStep s s.captureSend
  | captureAccInit : s.curOp = 0x06 → s.capPhase = .accInit → EngineStep s s.captureAccInit
  | captureRead : s.curOp = 0x06 → s.capPhase = .accRead → EngineStep s s.captureRead
  | captureParse : s.curOp = 0x06 → s.capPhase = .parse → EngineStep s s.captureParse
  | captureDemosaic : s.curOp = 0x06 → s.capPhase = .demosaic → EngineStep s s.captureDemosaic
  | linkOpen : s.curOp = 0x07 → EngineStep s s.linkOpenStage
  | linkClose : s.curOp = 0x08 → EngineStep s s.linkCloseStage

theorem engineStep_accumulate {s : State} (op : s.curOp = 0x03) : EngineStep s s.accumulateStage := by
  unfold State.accumulateStage
  cases started : s.accStarted
  · exact .accumulateStart op started
  · exact .accumulateRead op started

theorem engineStep_capture {s : State} (op : s.curOp = 0x06) : EngineStep s s.captureStage := by
  unfold State.captureStage
  cases phase : s.capPhase with
  | check => exact .captureCheck op phase
  | openLink => exact .captureOpen op phase
  | resetLink => exact .captureReset op phase
  | sendRequest => exact .captureSend op phase
  | accInit => exact .captureAccInit op phase
  | accRead => exact .captureRead op phase
  | parse => exact .captureParse op phase
  | demosaic => exact .captureDemosaic op phase

/-- A command with engine steps answers the stage it takes at the engine's event. -/
theorem exec_of_engineInstr {s : State} {i : Instr} (turn : s.turn = .engine) (named : engineInstr s.curOp = some i) :
    ∃ t, exec i s = .next t ∧ EngineStep s t := by
  rcases engineInstr_spec named with ⟨op, rfl⟩ | ⟨op, rfl⟩ | ⟨op, rfl⟩ | ⟨op, rfl⟩ | ⟨op, rfl⟩ | ⟨op, rfl⟩ | ⟨op, rfl⟩ |
    ⟨op, rfl⟩
  · exact ⟨_, by rw [exec_demosaic, State.asCommand_engine turn], .demosaic op⟩
  · exact ⟨_, by rw [exec_parse, State.asCommand_engine turn], .parse op⟩
  · exact ⟨_, by rw [exec_accumulate, State.asCommand_engine turn], engineStep_accumulate op⟩
  · exact ⟨_, by rw [exec_sendRequest, State.asCommand_engine turn], .sendRequest op⟩
  · exact ⟨_, by rw [exec_linkReset, State.asCommand_engine turn], .linkReset op⟩
  · exact ⟨_, by rw [exec_capture, State.asCommand_engine turn], engineStep_capture op⟩
  · exact ⟨_, by rw [exec_linkOpen, State.asCommand_engine turn], .linkOpen op⟩
  · exact ⟨_, by rw [exec_linkClose, State.asCommand_engine turn], .linkClose op⟩

/-! ### A packet's effect -/

/-- What a packet does: a register or byte access of the host, one run of the request encoder, or bytes queued in the
device (R64-R67, R86, R87). -/
inductive PacketStep (s : State) : State → Prop
  | regWrite (index : BitVec 4) (v : Word) : PacketStep s (s.regWrite index v)
  | regRead (index : BitVec 4) : PacketStep s { s with hostReply := s.regRead index }
  | memWrite (space : Space) (addr : Nat) (v : Byte) : PacketStep s (s.memWrite space addr v)
  | memRead (space : Space) (addr : Nat) : PacketStep s (s.memRead space addr)
  | encode (opcode param : Int) : PacketStep s (s.runEncoder opcode param)
  | lineUp (bytes : List Byte) : PacketStep s (s.lineUp bytes)

/-- An instruction at an event that is not the engine's is a packet's effect. -/
theorem packetStep_of_exec {s t : State} {i : Instr} (next : exec i s = .next t)
    (notEngine : s.turn = .engine → ∃ opcode param, i = .request opcode param) : PacketStep s t := by
  by_cases turn : s.turn = .engine
  case pos =>
    obtain ⟨opcode, param, rfl⟩ := notEngine turn
    cases next
    exact .encode _ _
  case neg =>
    have write := State.asCommand_write turn
    cases i <;> simp only [exec_nop, exec_abort, exec_demosaic, exec_parse, exec_accumulate, exec_sendRequest,
      exec_linkReset, exec_capture, exec_linkOpen, exec_linkClose, exec_rr, exec_rw, exec_mr, exec_mw, exec_request,
      exec_response, write] at next <;> cases next
    case rr index => exact .regRead index
    case mr space addr => exact .memRead space addr.toNat
    case mw space addr data => exact .memWrite space addr.toNat data
    case request opcode param => exact .encode _ _
    case response mode width height mosaic => exact .lineUp _
    all_goals exact .regWrite _ _

/-- The only packet that is an event of the engine is a request. -/
theorem packetAgent_eq_engine {p : Packet} {i : Instr} (decoded : decode p = .ok i)
    (engine : packetAgent p = .engine) : ∃ opcode param, i = .request opcode param := by
  cases p with
  | req16 w => exact ⟨_, _, (Except.ok.inj decoded).symm⟩
  | cmd | host | resp => contradiction

theorem runPacket_of_decode {p : Packet} {i : Instr} (decoded : decode p = .ok i) (s : State) :
    runPacket p s = exec i { s with turn := packetAgent p } := by
  rw [runPacket, decoded]

theorem runPacket_of_error {p : Packet} {e : DecodeError} (failed : decode p = .error e) (s : State) :
    runPacket p s = rejected e { s with turn := packetAgent p } := by
  rw [runPacket, failed]

/-- A packet that answers a next state has a packet's effect. -/
theorem packetStep_of_runPacket {p : Packet} {s t : State} (next : runPacket p s = .next t) :
    PacketStep { s with turn := packetAgent p } t := by
  cases decoded : decode p with
  | ok i =>
    rw [runPacket_of_decode decoded] at next
    exact packetStep_of_exec next (packetAgent_eq_engine decoded)
  | error e =>
    rw [runPacket_of_error decoded] at next
    cases e <;> cases next
    · exact .regWrite 0 _
    · exact .lineUp _

/-! ### One step -/

/-- What the engine finds: nothing scheduled, or its event first. -/
def EngineTurn (s : State) (rest : List Event) : Prop := s.schedule = [] ∧ rest = [] ∨ s.schedule = .engine :: rest

/-- All that a step which answers a next state can be. -/
inductive StepTo (s : State) : State → Prop
  | idle (rest : List Event) : EngineTurn s rest → s.status.busy = false → StepTo s { s with schedule := rest }
  | engine (rest : List Event) {t : State} : EngineTurn s rest → s.status.busy = true →
      EngineStep { s with schedule := rest, turn := .engine } t → StepTo s t
  | reset (rest : List Event) : s.schedule = .reset :: rest → StepTo s (State.platformReset { s with schedule := rest })
  | packet (p : Packet) (rest : List Event) {t : State} : s.schedule = .packet p :: rest →
      PacketStep { s with schedule := rest, turn := packetAgent p } t → StepTo s t

theorem stepTo_of_step {s t : State} (next : step s = .next t) : StepTo s t := by
  rcases step_spec s with ⟨rest, turn, ⟨idle, stepped⟩ | ⟨busy, i, named, stepped⟩ | ⟨-, -, stepped⟩⟩ |
    ⟨rest, first, stepped⟩ | ⟨p, rest, first, stepped⟩ <;> rw [stepped] at next
  case inl.inl =>
    cases next
    exact .idle rest turn idle
  case inl.inr.inl =>
    obtain ⟨t', executed, stage⟩ :=
      exec_of_engineInstr (s := { s with schedule := rest, turn := .engine }) rfl named
    obtain rfl := Host.Outcome.next.inj (executed.symm.trans next)
    exact .engine rest turn busy stage
  case inl.inr.inr => contradiction
  case inr.inl =>
    cases next
    exact .reset rest first
  case inr.inr => exact .packet p rest first (packetStep_of_runPacket next)

theorem step_of_packet {s : State} {p : Packet} {rest : List Event} (first : s.schedule = .packet p :: rest) :
    step s = runPacket p { s with schedule := rest } := by
  rw [step, runNext, first]

theorem step_of_engineTurn {s : State} {rest : List Event} (turn : EngineTurn s rest) :
    step s = runEngine { s with schedule := rest } := by
  rcases turn with ⟨empty, rfl⟩ | first
  · have same : { s with schedule := [] } = s := by rw [← empty]
    rw [same, step, runNext, empty]
  · rw [step, runNext, first]

/-- At its turn while busy the engine runs the command that `CUR_OP` names. -/
theorem step_of_engineTurn_busy {s : State} {rest : List Event} (turn : EngineTurn s rest)
    (busy : s.status.busy = true) {i : Instr} (named : engineInstr s.curOp = some i) :
    step s = exec i { s with schedule := rest, turn := .engine } := by
  rw [step_of_engineTurn turn, runEngine, if_pos busy, named]

theorem step_of_engineTurn_idle {s : State} {rest : List Event} (turn : EngineTurn s rest)
    (idle : s.status.busy = false) : step s = .next { s with schedule := rest } := by
  rw [step_of_engineTurn turn, runEngine, if_neg (by simp [idle])]

/-! ### The statements on steps (R72, R83, R85, R216, R244) -/

/-- Settles O5: the packet is taken off and decoded, and what does not decode is a write to `CMD` or line noise. -/
theorem stepRunsTheScheduledPacket : Obligations.StepRunsTheScheduledPacket := by
  refine fun s rest => ⟨fun p i first decoded => ?_, fun v first illegal => ?_, fun bytes first noise => ?_⟩
  · rw [step_of_packet first, runPacket_of_decode decoded]
  · have failed := (decode_cmd_eq_illegalCommand_iff v).2 ((decodeCommand_eq_none_iff v).2 illegal)
    rw [step_of_packet first, runPacket_of_error failed, exec_rw]
    rfl
  · have failed : decode (.resp bytes) = .error (.malformedResponse bytes) := by
      cases decoded : decodeResponse bytes with
      | none => simp [decode, decoded]
      | some i => exact absurd ((decode_resp_eq_ok_iff bytes i).2 decoded) (noise i)
    rw [step_of_packet first, runPacket_of_error failed]
    rfl

/-- Settles O6: the engine's turn is the stage of the running command, or nothing while idle; the opcodes are
evaluated. -/
theorem stepRunsTheEngineStage : Obligations.StepRunsTheEngineStage := by
  refine fun s => ⟨fun busy i named => ⟨fun empty => ?_, fun rest first => ?_⟩,
    fun idle => ⟨fun empty => ?_, fun rest first => ?_⟩, rfl, rfl, rfl, rfl, rfl, rfl, rfl, rfl,
    engineInstr_eq_none_iff⟩
  · rw [step_of_engineTurn_busy (.inl ⟨empty, rfl⟩) busy named, ← empty]
  · rw [step_of_engineTurn_busy (.inr first) busy named]
  · rw [step_of_engineTurn_idle (.inl ⟨empty, rfl⟩) idle, ← empty]
  · rw [step_of_engineTurn_idle (.inr first) idle]

/-- Settles O7: NOP and ABORT are such writes by definition, the others at every event but the engine's. -/
theorem commandIsTheWriteOfItsWord : Obligations.CommandIsTheWriteOfItsWord := by
  refine fun s => ⟨rfl, rfl, fun turn => ?_⟩
  simp only [exec_demosaic, exec_parse, exec_accumulate, exec_sendRequest, exec_linkReset, exec_capture, exec_linkOpen,
    exec_linkClose, exec_rw, State.asCommand_write turn, and_self]

/-- Every instruction has a meaning. -/
theorem exec_answers (i : Instr) (s : State) : ∃ t, exec i s = .next t := by
  cases i <;> exact ⟨_, rfl⟩

theorem decode_eq_malformedDescriptor_iff (p : Packet) (t : BitVec 64) :
    decode p = .error (.malformedDescriptor t) ↔ p = .host t ∧ decodeHost t = none := by
  cases p with
  | cmd v => cases decoded : decodeCommand v <;> simp [decode, decoded]
  | host u =>
    cases decoded : decodeHost u <;> simp [decode, decoded]
    · rintro rfl
      exact decoded
    · rintro rfl
      simp [decoded]
  | req16 w => simp [decode]
  | resp bytes => cases decoded : decodeResponse bytes <;> simp [decode, decoded]

/-- A packet is refused exactly for a descriptor that is not well formed. -/
theorem runPacket_eq_refused_iff (p : Packet) (s : State) (r : Refusal) :
    runPacket p s = .refused r ↔ r = .malformedDescriptor ∧ ∃ t, p = .host t ∧ decodeHost t = none := by
  cases decoded : decode p with
  | ok i =>
    obtain ⟨t, answered⟩ := exec_answers i { s with turn := packetAgent p }
    rw [runPacket_of_decode decoded, answered]
    refine iff_of_false nofun ?_
    rintro ⟨-, u, isHost⟩
    rw [(decode_eq_malformedDescriptor_iff p u).2 isHost] at decoded
    contradiction
  | error e =>
    simp only [runPacket_of_error decoded, ← decode_eq_malformedDescriptor_iff, decoded, Except.error.injEq]
    cases e with
    | illegalCommand | malformedResponse => simp [rejected]
    | malformedDescriptor u => simp [rejected, eq_comm]

/-- Settles O13: neither the engine nor a reset is ever refused, and of the packets only such a descriptor. -/
theorem onlyMalformedDescriptorsAreRefused : Obligations.OnlyMalformedDescriptorsAreRefused := by
  intro s r
  rcases step_spec s with ⟨rest, turn, stepped⟩ | ⟨rest, first, stepped⟩ | ⟨p, rest, first, stepped⟩
  case inr.inr =>
    rw [stepped, runPacket_eq_refused_iff, first]
    simp only [List.cons.injEq, Event.packet.injEq]
    refine and_congr_right fun _ => exists_congr fun t => ?_
    simp
  case inr.inl =>
    rw [stepped, first]
    simp
  case inl =>
    have notPacket : ∀ p rest', s.schedule ≠ .packet p :: rest' := by
      rcases turn with ⟨empty, -⟩ | first
      · simp [empty]
      · simp [first]
    have answers : ∀ r', step s ≠ .refused r' := by
      rcases stepped with ⟨-, stepped⟩ | ⟨-, i, -, stepped⟩ | ⟨-, -, stepped⟩
      · simp [stepped]
      · obtain ⟨t, answered⟩ := exec_answers i { s with schedule := rest, turn := .engine }
        simp [stepped, answered]
      · simp [stepped]
    refine iff_of_false (answers r) ?_
    rintro ⟨-, t, rest', first, -⟩
    exact notPacket _ _ first

/-! ### Reset (R261, R262) -/

theorem platformReset_peek (s : State) (space : Space) (addr : Nat) :
    s.platformReset.peek space addr = s.peek space addr :=
  State.peek_congr (by cases space <;> rfl) addr

/-- Settles O9: of the state only the memories and the ports stay. -/
theorem resetKeepsMemoriesAndClosesTheLink : Obligations.ResetKeepsMemoriesAndClosesTheLink := by
  intro s rest first
  exact ⟨_, Reset.step_of_reset first, platformReset_peek { s with schedule := rest }, rfl, rfl, rfl, rfl⟩

/-! ### The issue and the end of a command (R10, R200, R209) -/

/-- Settles O27: this is the definition of `finish`. -/
theorem finishWritesTheRecord : Obligations.FinishWritesTheRecord := fun _ _ _ _ => rfl

/-- Settles O29: each of the eight words decodes to its command, and only CAPTURE adds to the acceptance. -/
theorem commandsAreAcceptedWhileIdle : Obligations.CommandsAreAcceptedWhileIdle := by
  intro s op idle low high
  have opcode : op = 1 ∨ op = 2 ∨ op = 3 ∨ op = 4 ∨ op = 5 ∨ op = 6 ∨ op = 7 ∨ op = 8 := by bv_omega
  rw [exec_rw, State.regWrite_idle idle, if_pos rfl]
  rcases opcode with rfl | rfl | rfl | rfl | rfl | rfl | rfl | rfl <;> rfl

/-- Settles O31: the clean-up, and the `SEQ_STATE` of each of the five errors. -/
theorem captureFailureCleansUp : Obligations.CaptureFailureCleansUp := by
  intro s code seq info0 info1 row
  have names : failureSeq code s.status.seqState = seq := by
    simp only [List.mem_cons, List.not_mem_nil, or_false, Prod.mk.injEq] at row
    rcases row with ⟨rfl, rfl⟩ | ⟨rfl, rfl⟩ | ⟨rfl, rfl⟩ | ⟨rfl, rfl⟩ | ⟨rfl, rfl⟩ <;> rfl
  rw [failCapture_eq, names]

end Sys2Proof.Proofs.Steps
end

section
/-! Proofs of the statements on 40_link_request.md and on the read steps of 41_accumulate.md: LINK_RESET (R104), the
request encoder (R105), the contract of a link read (R100, R108), and what one read of ACCUMULATE does (R122-R127). -/

namespace Sys2Proof.Proofs.Reads

open Sys2Proof Sys2Proof.Machine Sys2Proof.Safety Sys2Proof.Proofs.LinkRequest

/-! ### LINK_RESET (R104) -/

/-- The state after a reset of the link whose answer is known. -/
def linkWasReset (s : State) (ok : Bool) (acks : List Bool) (k : Nat) : State :=
  if ok then
    { s with
      frameLen := 0, linkQueue := []
      linkLog := s.linkLog ++ [.linkReset], linkAcks := acks, draws := k }
  else
    { s with
      linkQueue := Config.linkLeft k
      linkLog := s.linkLog ++ [.linkReset], linkAcks := acks, draws := k + 1 }

theorem resetLink_of_acked {s : State} {ok : Bool} {acks : List Bool} {k : Nat} (acked : Acked s ok acks k) :
    s.resetLink = (ok, linkWasReset s ok acks k) := by
  rw [State.resetLink, linkAck_of_acked acked]
  cases ok <;> rfl

theorem linkResetStage_of_closed {s : State} (closed : s.status.linkOpen = false) :
    s.linkResetStage = s.finish .deviceUnavailable 2 s.frameLen := by
  rw [State.linkResetStage, if_neg (by simp [closed]), State.linkUnavailable]

theorem linkResetStage_of_open {s : State} {ok : Bool} {acks : List Bool} {k : Nat}
    (isOpen : s.status.linkOpen = true) (acked : Acked s ok acks k) :
    s.linkResetStage =
      if ok then (linkWasReset s true acks k).finish .none 0 0
      else (linkWasReset s false acks k).finish .deviceUnavailable 2 s.frameLen := by
  rw [State.linkResetStage, if_pos isOpen, resetLink_of_acked acked]
  cases ok <;> rfl

/-- Settles O35: no link, or the answer to `LinkReset` decides. -/
theorem linkResetEmptiesTheFrame : Obligations.LinkResetEmptiesTheFrame := by
  refine ⟨rfl, fun s turn => ?_⟩
  rw [exec_linkReset, State.asCommand_engine turn]
  refine ⟨fun closed => ?_, fun isOpen ok acks k acked => ?_⟩
  · rw [linkResetStage_of_closed closed]
  · rw [linkResetStage_of_open isOpen acked]
    rfl

/-! ### The request encoder (R105) and the two wire formats -/

/-- The byte of a signed value is its two's complement. -/
theorem u8_eq_ofInt (v : Int) : u8 v = BitVec.ofInt 8 v := by
  apply BitVec.eq_of_toNat_eq
  have low : 0 ≤ v % 256 := Int.emod_nonneg v (by decide)
  have high : v % 256 < 256 := Int.emod_lt_of_pos v (by decide)
  rw [u8, BitVec.toNat_ofNat, BitVec.toNat_ofInt]
  omega

/-- Settles O37: each byte is the two's complement of its value. -/
theorem requestIsTheTwoBytes : Obligations.RequestIsTheTwoBytes := by
  refine ⟨fun opc param _ _ _ _ => ?_, rfl, encodeRequest_s8, fun s opcode param => ?_⟩
  · rw [encodeRequest, u8_eq_ofInt, u8_eq_ofInt]
  · rw [exec_request, State.runEncoder, encodeRequest_s8]

/-- Settles O38: the bytes of the response are queued in the order of the format. -/
theorem responseIsLinedUpForTheReads : Obligations.ResponseIsLinedUpForTheReads := by
  intro s mode width height mosaic
  rw [exec_response, State.lineUp]

/-! ### The contract of a read (R100, R108, R122) -/

/-- A read of a device whose bytes the state says is given the first of them, and leaves the others. -/
theorem linkRead_of_held {s : State} {held : List Byte} {rest : List RxItem}
    (said : s.linkRx = .altered held :: rest ∨ ∃ bytes, s.linkRx = .chunk bytes :: rest ∧ held = s.linkQueue ++ bytes)
    (r : Nat) :
    s.linkRead r =
      (some (held.take r),
        { s with linkLog := s.linkLog ++ [.linkRead r], linkRx := rest, linkQueue := held.drop r }) := by
  rcases said with altered | ⟨bytes, chunk, rfl⟩
  · exact State.linkRead_altered altered r
  · exact State.linkRead_chunk chunk r

/-- Settles O39: every answer keeps the bound, and a failure and any bytes held are answers that can be given. -/
theorem linkReadsKeepTheContract : Obligations.LinkReadsKeepTheContract := by
  intro s r
  refine ⟨s.linkRead_spec r, fun rest fails => ?_, fun held rest said => ⟨fun short => ?_, fun long => ?_⟩⟩
  · rw [State.linkRead_fail fails]
  · rw [linkRead_of_held said, List.take_of_length_le short, List.drop_of_length_le short]
  · exact ⟨held.take r, held.drop r, List.length_take_of_le long, List.take_append_drop r held,
      linkRead_of_held said r⟩

/-! ### One read of the engine (R122, R123) -/

/-- The state once a read is counted, before its bytes are appended. -/
def readCounted (s : State) (rx : List RxItem) (queue : List Byte) (k : Nat) : State :=
  { s with
    accAttempts := s.accAttempts + 1, linkLog := s.linkLog ++ [.linkRead s.missing]
    linkRx := rx, linkQueue := queue, draws := k }

/-- The state once the bytes of a read are appended. -/
def readAppended (s : State) (chunk : List Byte) (rx : List RxItem) (queue : List Byte) (k : Nat) : State :=
  { readCounted s rx queue k with
    frame := s.frame.writeBlock s.frameLen.toNat chunk
    frameLen := s.frameLen + BitVec.ofNat 32 chunk.length
    accCount := s.accCount + BitVec.ofNat 32 chunk.length }

/-- A read always answers, and within the bytes missing. -/
theorem exists_readAnswered (s : State) :
    ∃ answer rx queue k, ReadAnswered s answer rx queue k ∧
      ∀ chunk, answer = some chunk → chunk.length ≤ s.missing :=
  s.linkRead_spec s.missing

theorem readStep_of_failed {s : State} {rx : List RxItem} {queue : List Byte} {k : Nat}
    (answered : ReadAnswered s none rx queue k) : s.readStep = (false, readCounted s rx queue k) := by
  rw [State.readStep, answered]
  rfl

theorem readStep_of_chunk {s : State} {chunk : List Byte} {rx : List RxItem} {queue : List Byte} {k : Nat}
    (answered : ReadAnswered s (some chunk) rx queue k) : s.readStep = (true, readAppended s chunk rx queue k) := by
  rw [State.readStep, answered]
  rfl

/-- A read writes the bytes it was given from `FRAME_LEN` on, and no other. -/
theorem readAppended_peek (s : State) (chunk : List Byte) (rx : List RxItem) (queue : List Byte) (k : Nat)
    (space : Space) (addr : Nat) :
    (readAppended s chunk rx queue k).peek space addr = (s.poke .frame s.frameLen.toNat chunk).peek space addr :=
  State.peek_congr (by cases space <;> rfl) addr

/-- The bytes of a block lie from its base on in their order. -/
theorem peek_poke_inside (s : State) (space : Space) (base : Nat) {bs : List Byte} {i : Nat} (inside : i < bs.length) :
    (s.poke space base bs).peek space (base + i) = bs[i] := by
  simp [State.peek_poke, inside]

/-- No byte outside a block is written. -/
theorem peek_poke_outside (s : State) {space other : Space} {base : Nat} {bs : List Byte} {addr : Nat}
    (outside : ¬(other = space ∧ base ≤ addr ∧ addr < base + bs.length)) :
    (s.poke space base bs).peek other addr = s.peek other addr := by
  rw [State.peek_poke, dif_neg]
  rintro ⟨sameSpace, low, high⟩
  exact outside ⟨sameSpace, low, by omega⟩

/-! ### The read step of ACCUMULATE (R123, R124, R126) -/

theorem accumulateStage_of_started {s : State} (started : s.accStarted = true) :
    s.accumulateStage = s.accumulateRead := by
  rw [State.accumulateStage, if_pos started]

theorem accumulateRead_of_failed {s : State} {rx : List RxItem} {queue : List Byte} {k : Nat}
    (answered : ReadAnswered s none rx queue k) :
    s.accumulateRead = (readCounted s rx queue k).finish .deviceUnavailable 4 s.frameLen := by
  rw [State.accumulateRead, readStep_of_failed answered]
  rfl

/-- Success is tested before the budget. -/
theorem accumulateRead_of_chunk {s : State} {chunk : List Byte} {rx : List RxItem} {queue : List Byte} {k : Nat}
    (answered : ReadAnswered s (some chunk) rx queue k) :
    s.accumulateRead =
      if (readAppended s chunk rx queue k).accCount = s.accExpected then
        (readAppended s chunk rx queue k).finish .none 0 0
      else if s.accAttempts + 1 = s.accMax.setWidth 32 then
        (readAppended s chunk rx queue k).finish .acquisitionTimeout (readAppended s chunk rx queue k).accCount
          s.accExpected
      else readAppended s chunk rx queue k := by
  rw [State.accumulateRead, readStep_of_chunk answered]
  simp only [State.budgetSpent, beq_iff_eq]
  rfl

/-- The end of the command leaves the bytes of the read where they are. -/
theorem accumulateRead_peek {s : State} {chunk : List Byte} {rx : List RxItem} {queue : List Byte} {k : Nat}
    (answered : ReadAnswered s (some chunk) rx queue k) (space : Space) (addr : Nat) :
    s.accumulateRead.peek space addr = (s.poke .frame s.frameLen.toNat chunk).peek space addr := by
  rw [accumulateRead_of_chunk answered, ← readAppended_peek s chunk rx queue k]
  split_ifs
  · exact Parse.finish_peek _ _ _ _ space addr
  · exact Parse.finish_peek _ _ _ _ space addr
  · rfl

theorem accumulateRead_frameLen {s : State} {chunk : List Byte} {rx : List RxItem} {queue : List Byte} {k : Nat}
    (answered : ReadAnswered s (some chunk) rx queue k) :
    s.accumulateRead.frameLen = s.frameLen + BitVec.ofNat 32 chunk.length := by
  rw [accumulateRead_of_chunk answered]
  split_ifs <;> rfl

/-- Settles O42: the failed read, and the completion test of a read that brought bytes. -/
theorem accumulateReadStep : Obligations.AccumulateReadStep := by
  intro s turn started answer rx queue k answered
  rw [exec_accumulate, State.asCommand_engine turn, accumulateStage_of_started started]
  refine ⟨?_, ?_⟩
  · rintro rfl
    rw [accumulateRead_of_failed answered]
    rfl
  · rintro chunk rfl
    rw [accumulateRead_of_chunk answered]
    refine ⟨fun full => ?_, fun missing spent => ?_, fun missing left => ?_⟩
    · exact congrArg _ (if_pos full)
    · exact congrArg _ ((if_neg missing).trans (if_pos spent))
    · exact congrArg _ ((if_neg missing).trans (if_neg left))

/-- Settles O43: the bytes read are one block of `FRAME`. -/
theorem readBytesKeepArrivalOrder : Obligations.ReadBytesKeepArrivalOrder := by
  intro s chunk rx queue k turn started answered
  rw [exec_accumulate, State.asCommand_engine turn, accumulateStage_of_started started]
  refine ⟨_, rfl, fun i inside => ?_, fun space addr outside => ?_⟩
  · rw [accumulateRead_peek answered, peek_poke_inside s .frame _ inside, List.getElem?_eq_getElem inside]
  · rw [accumulateRead_peek answered, peek_poke_outside s outside]

/-- Settles O40: the response is one block from 0 on, and its bytes are taken by position. -/
theorem accumulatedResponseLiesInFrame : Obligations.AccumulatedResponseLiesInFrame := by
  intro s mode width height mosaic rx queue k turn started empty length answered
  rw [exec_accumulate, State.asCommand_engine turn, accumulateStage_of_started started]
  have byte (i : Nat) (inside : i < (mode :: width :: height :: mosaic).length) :
      some (s.accumulateRead.peek .frame i) = (mode :: width :: height :: mosaic)[i]? := by
    have start : s.frameLen.toNat = 0 := by simp [empty]
    have written := peek_poke_inside s .frame 0 inside
    rw [Nat.zero_add] at written
    rw [accumulateRead_peek answered, start, written, List.getElem?_eq_getElem inside]
  refine ⟨_, rfl, ?_, ?_, ?_, fun x y insideX insideY => ?_, ?_⟩
  · exact Option.some.inj (byte 0 (by simp))
  · exact Option.some.inj (byte 1 (by simp))
  · exact Option.some.inj (byte 2 (by simp))
  · have inside : y * width.toNat + x < mosaic.length := by
      rw [length]
      nlinarith
    have place : 3 + y * width.toNat + x = y * width.toNat + x + 3 := by omega
    rw [place, byte _ (by simpa using inside)]
    rfl
  · rw [accumulateRead_frameLen answered, empty]
    simp only [BitVec.ofNat_eq_ofNat, BitVec.zero_add, List.length_cons, length]
    congr 1
    omega

end Sys2Proof.Proofs.Reads
end

section
/-! Proofs of the statements on 43_demosaic.md: where the neighbours of a site lie (R165, R166), what the value of a
channel is (R167, R168, R174), and what a demosaic writes (R169, R170, R172). -/

namespace Sys2Proof.Proofs.Image

open Sys2Proof Sys2Proof.Machine Sys2Proof.Safety Sys2Proof.Proofs.Demosaic Sys2Proof.Proofs.Reads

/-! ### The border functions (R165, R166) -/

/-- A coordinate inside the dimension is kept. -/
theorem border_index_inside (border : Border) {i n : Nat} (inside : i < n) : border.index (i : Int) n = i := by
  cases border <;> simp only [Border.index, mirrorIdx, clampIdx]
  · split_ifs <;> omega
  · omega

/-- One step beyond the dimension is mapped into it. -/
theorem border_index_lt (border : Border) {i : Int} {n : Nat} (positive : 1 ≤ n) (low : -1 ≤ i) (high : i ≤ n) :
    border.index i n < n := by
  cases border <;> simp only [Border.index, mirrorIdx, clampIdx]
  · split_ifs <;> omega
  · omega

/-- Every neighbour of a site of the image is a sample of its mosaic. -/
theorem neighbour_lt (a : DemosaicArgs) {x y : Nat} {c : Channel} {offset : Int × Int} (insideX : x < a.width)
    (insideY : y < a.height) (mem : offset ∈ (siteClass a.layout x y c).offsets) :
    a.neighbour x y offset < a.width * a.height := by
  obtain ⟨⟨left, right⟩, above, below⟩ := offset_bounds mem
  have column := border_index_lt a.border (i := (x : Int) + offset.1) (n := a.width) (by omega) (by omega) (by omega)
  have row := border_index_lt a.border (i := (y : Int) + offset.2) (n := a.height) (by omega) (by omega) (by omega)
  unfold DemosaicArgs.neighbour
  nlinarith

/-- Settles O51: the two border functions at and beyond the ends, and the bound on every neighbour. -/
theorem neighboursLieInTheMosaic : Obligations.NeighboursLieInTheMosaic := by
  refine ⟨fun n positive => ⟨?_, ?_, ?_, ?_, fun border i inside => border_index_inside border inside⟩,
    fun a x y c offset insideX insideY mem => neighbour_lt a insideX insideY mem⟩
  · simp only [Border.index, mirrorIdx]
    split_ifs <;> omega
  · simp only [Border.index, mirrorIdx]
    split_ifs <;> omega
  · simp only [Border.index, clampIdx]
    omega
  · simp only [Border.index, clampIdx]
    omega

/-! ### The value of a channel (R167, R168, R174) -/

theorem samples_length (a : DemosaicArgs) (mosaic : Nat → Byte) (x y : Nat) (c : Channel) :
    (a.samples mosaic x y c).length = (siteClass a.layout x y c).offsets.length := by
  rw [DemosaicArgs.samples, List.length_map]

/-- A channel has one, two or four samples. -/
theorem samples_count (a : DemosaicArgs) (mosaic : Nat → Byte) (x y : Nat) (c : Channel) :
    (a.samples mosaic x y c).length = 1 ∨ (a.samples mosaic x y c).length = 2 ∨
      (a.samples mosaic x y c).length = 4 := by
  rw [samples_length]
  cases siteClass a.layout x y c <;> simp [SiteClass.offsets]

theorem samples_sum_le (a : DemosaicArgs) (mosaic : Nat → Byte) (x y : Nat) (c : Channel) :
    (a.samples mosaic x y c).sum ≤ 255 * (a.samples mosaic x y c).length := by
  have bound : ∀ n ∈ a.samples mosaic x y c, n ≤ 255 := by
    intro n mem
    obtain ⟨offset, -, rfl⟩ := List.mem_map.1 mem
    omega
  have total := List.sum_le_card_nsmul _ 255 bound
  rwa [smul_eq_mul, mul_comm] at total

/-- A mean of bytes, rounded either way, is a byte. -/
theorem rounding_apply_le (rounding : Rounding) {sum k : Nat} (positive : 0 < k) (bound : sum ≤ 255 * k) :
    rounding.apply sum k ≤ 255 := by
  cases rounding <;> simp only [Rounding.apply]
  · have small : 2 * sum + k < 256 * (2 * k) := by omega
    have := Nat.div_lt_of_lt_mul (m := 2 * sum + k) (n := 2 * k) (k := 256) (by omega)
    omega
  · exact Nat.div_le_of_le_mul (by omega)

theorem rounded_le (a : DemosaicArgs) (mosaic : Nat → Byte) (x y : Nat) (c : Channel) :
    a.rounded mosaic x y c ≤ 255 :=
  rounding_apply_le _ (by have := samples_count a mosaic x y c; omega) (samples_sum_le a mosaic x y c)

/-- The clamp and the 8 bits keep the rounded value. -/
theorem q_toNat (a : DemosaicArgs) (mosaic : Nat → Byte) (x y : Nat) (c : Channel) :
    (a.q mosaic x y c).toNat = a.rounded mosaic x y c := by
  have small := rounded_le a mosaic x y c
  rw [DemosaicArgs.q, Nat.min_eq_left small, BitVec.toNat_ofNat, Nat.mod_eq_of_lt (by omega)]

/-- Under HALF_UP the value is the whole number nearest to the mean, the upper one of two. -/
theorem halfUp_bounds (sum : Nat) {k : Nat} (positive : 0 < k) :
    2 * (k * Rounding.apply .halfUp sum k) ≤ 2 * sum + k ∧ 2 * sum < 2 * (k * Rounding.apply .halfUp sum k) + k := by
  have low := Nat.div_mul_le_self (2 * sum + k) (2 * k)
  have high := Nat.lt_div_mul_add (a := 2 * sum + k) (b := 2 * k) (by omega)
  have product : (2 * sum + k) / (2 * k) * (2 * k) = 2 * (k * ((2 * sum + k) / (2 * k))) := by ring
  simp only [Rounding.apply]
  omega

/-- Under TRUNC the value is the whole part of the mean. -/
theorem trunc_bounds (sum : Nat) {k : Nat} (positive : 0 < k) :
    k * Rounding.apply .trunc sum k ≤ sum ∧ sum < k * Rounding.apply .trunc sum k + k := by
  have low := Nat.div_mul_le_self sum k
  have high := Nat.lt_div_mul_add (a := sum) (b := k) positive
  have product : sum / k * k = k * (sum / k) := mul_comm _ _
  simp only [Rounding.apply]
  omega

/-- The mean of one sample is the sample. -/
theorem rounding_apply_one (rounding : Rounding) (sum : Nat) : rounding.apply sum 1 = sum := by
  cases rounding <;> simp only [Rounding.apply] <;> omega

/-- A site that samples the channel itself keeps its sample. -/
theorem rounded_of_own (a : DemosaicArgs) (mosaic : Nat → Byte) {x y : Nat} {c : Channel} (insideX : x < a.width)
    (insideY : y < a.height) (own : native a.layout x y = c) :
    a.rounded mosaic x y c = (mosaic (y * a.width + x)).toNat := by
  have cls : siteClass a.layout x y c = .own := by rw [siteClass, if_pos own]
  have column := border_index_inside a.border insideX
  have row := border_index_inside a.border insideY
  simp [DemosaicArgs.rounded, DemosaicArgs.samples, DemosaicArgs.neighbour, cls, SiteClass.offsets, column, row,
    rounding_apply_one]

/-- Settles O53: the bounds of each rounding at the one, two or four samples, and a site of the own class. -/
theorem clampNeverChangesAValue : Obligations.ClampNeverChangesAValue := by
  intro a mosaic x y c samples sum k value
  have positive : 0 < k := by
    have := samples_count a mosaic x y c
    change 0 < (a.samples mosaic x y c).length
    omega
  have rounded : value = a.rounding.apply sum k := q_toNat a mosaic x y c
  refine ⟨fun halfUp => ?_, fun trunc => ?_, rounded_le a mosaic x y c, q_toNat a mosaic x y c,
    fun insideX insideY own => ?_⟩
  · rw [rounded, halfUp]
    exact halfUp_bounds sum positive
  · rw [rounded, trunc]
    exact trunc_bounds sum positive
  · apply BitVec.eq_of_toNat_eq
    rw [q_toNat, rounded_of_own a mosaic insideX insideY own]

/-! ### What a demosaic writes (R169, R170) -/

/-- The state in which the image has been written to `RGB` with `OUT_DIM`. -/
def imageWritten (s : State) (layout : Layout) (dim : Dim) : State :=
  { s.poke .rgb 0 ((demosaicArgs s layout dim).image (s.peek .mosaic)) with outDim := dim }

theorem demosaicInto_of_supported {s : State} {layout : Layout}
    (supported : layoutOfPattern s.cfgDemosaic.pattern = some layout) (dim : Dim) :
    s.demosaicInto dim = some (imageWritten s layout dim) := by
  rw [State.demosaicInto, supported]
  rfl

/-- `RGB` and `OUT_DIM` are all that it changes. -/
theorem imageWritten_eq (s : State) (layout : Layout) (dim : Dim) :
    imageWritten s layout dim = { s with rgb := (imageWritten s layout dim).rgb, outDim := dim } := rfl

theorem imageWritten_peek (s : State) (layout : Layout) (dim : Dim) (space : Space) (addr : Nat) :
    (imageWritten s layout dim).peek space addr =
      (s.poke .rgb 0 ((demosaicArgs s layout dim).image (s.peek .mosaic))).peek space addr :=
  State.peek_congr (by cases space <;> rfl) addr

theorem imageWritten_peek_of_outside {s : State} {layout : Layout} {dim : Dim} {space : Space} {addr : Nat}
    (outside : ¬(space = .rgb ∧
      addr < 3 * ((demosaicArgs s layout dim).width * (demosaicArgs s layout dim).height))) :
    (imageWritten s layout dim).peek space addr = s.peek space addr := by
  rw [imageWritten_peek, peek_poke_outside]
  rintro ⟨sameSpace, -, high⟩
  rw [DemosaicArgs.image_length, Nat.zero_add] at high
  exact outside ⟨sameSpace, high⟩

/-- Byte `n` of the image is a channel of pixel `n / 3`. -/
theorem imageWritten_peek_rgb {s : State} {layout : Layout} {dim : Dim} {n : Nat}
    (inside : n < 3 * ((demosaicArgs s layout dim).width * (demosaicArgs s layout dim).height)) :
    (imageWritten s layout dim).peek .rgb n =
      (demosaicArgs s layout dim).q (s.peek .mosaic) (n / 3 % (demosaicArgs s layout dim).width)
        (n / 3 / (demosaicArgs s layout dim).width) (channelOfIndex (n % 3)) := by
  rw [← DemosaicArgs.image_length _ (s.peek .mosaic)] at inside
  have written := peek_poke_inside s .rgb 0 inside
  rw [Nat.zero_add] at written
  rw [imageWritten_peek, written, DemosaicArgs.image_getElem]

/-- The three bytes of a pixel are its channels. -/
theorem imageWritten_peek_pixel {s : State} {layout : Layout} {dim : Dim} {x y j : Nat}
    (insideX : x < (demosaicArgs s layout dim).width) (insideY : y < (demosaicArgs s layout dim).height)
    (channel : j < 3) :
    (imageWritten s layout dim).peek .rgb (3 * (y * (demosaicArgs s layout dim).width + x) + j) =
      (demosaicArgs s layout dim).q (s.peek .mosaic) x y (channelOfIndex j) := by
  generalize size : demosaicArgs s layout dim = a at insideX insideY ⊢
  have pixel : (3 * (y * a.width + x) + j) / 3 = y * a.width + x := by omega
  have index : (3 * (y * a.width + x) + j) % 3 = j := by omega
  have column : (y * a.width + x) % a.width = x := by
    rw [Nat.mul_add_mod', Nat.mod_eq_of_lt insideX]
  have row : (y * a.width + x) / a.width = y := by
    rw [Nat.mul_comm, Nat.mul_add_div (by omega), Nat.div_eq_of_lt insideX, Nat.add_zero]
  have inside : y * a.width + x < a.width * a.height := by nlinarith
  rw [imageWritten_peek_rgb (by rw [size]; omega), size, pixel, index, column, row]

theorem demosaicStage_of_supported {s : State} {layout : Layout}
    (supported : layoutOfPattern s.cfgDemosaic.pattern = some layout) :
    s.demosaicStage = (imageWritten s layout s.cfgDim).finish .none 0 0 := by
  rw [State.demosaicStage, demosaicInto_of_supported supported]
  rfl

/-- Settles O48: the image of the `CFG_DIM` dimensions, pixel by pixel, and nothing else. -/
theorem demosaicWritesTheImage : Obligations.DemosaicWritesTheImage := by
  refine ⟨rfl, fun s layout turn supported => ?_⟩
  rw [exec_demosaic, State.asCommand_engine turn, demosaicStage_of_supported supported]
  refine ⟨_, rfl, fun x y insideX insideY => ⟨?_, ?_, ?_⟩, fun space addr outside => ?_, ?_⟩
  · exact (Parse.finish_peek ..).trans (imageWritten_peek_pixel insideX insideY (j := 0) (by decide))
  · exact (Parse.finish_peek ..).trans (imageWritten_peek_pixel insideX insideY (j := 1) (by decide))
  · exact (Parse.finish_peek ..).trans (imageWritten_peek_pixel insideX insideY (j := 2) (by decide))
  · exact (Parse.finish_peek ..).trans (imageWritten_peek_of_outside outside)
  · rfl

/-! ### A demosaic depends on its operands alone (R172) -/

/-- The value of a channel of a site of the image depends on the samples of the image alone. -/
theorem q_congr (a : DemosaicArgs) {mosaic mosaic' : Nat → Byte} {x y : Nat} (c : Channel) (insideX : x < a.width)
    (insideY : y < a.height) (same : ∀ i, i < a.width * a.height → mosaic i = mosaic' i) :
    a.q mosaic x y c = a.q mosaic' x y c := by
  have samples : a.samples mosaic x y c = a.samples mosaic' x y c :=
    List.map_congr_left fun offset mem => by rw [same _ (neighbour_lt a insideX insideY mem)]
  rw [DemosaicArgs.q, DemosaicArgs.q, DemosaicArgs.rounded, DemosaicArgs.rounded, samples]

theorem exists_layout {code : Byte} (supported : code.toNat ≤ 3) : ∃ layout, layoutOfPattern code = some layout := by
  have hasLayout : layoutOfPattern code ≠ none := fun noLayout =>
    absurd ((layoutOfPattern_eq_none_iff _).1 noLayout) (Nat.not_lt.2 supported)
  exact Option.ne_none_iff_exists'.1 hasLayout

/-- Settles O54: both runs write the image of the same arguments, and its bytes depend on equal samples. -/
theorem demosaicIsPure : Obligations.DemosaicIsPure := by
  intro s s' t t' turn turn' sameDim sameCfg supported samples next next' i inside
  obtain ⟨layout, found⟩ := exists_layout supported
  have found' : layoutOfPattern s'.cfgDemosaic.pattern = some layout := by rw [← sameCfg, found]
  rw [exec_demosaic, State.asCommand_engine turn, demosaicStage_of_supported found] at next
  rw [exec_demosaic, State.asCommand_engine turn', demosaicStage_of_supported found'] at next'
  cases next
  cases next'
  have args : demosaicArgs s' layout s'.cfgDim = demosaicArgs s layout s.cfgDim := by
    rw [demosaicArgs, demosaicArgs, sameDim, sameCfg]
  rw [Parse.finish_peek, Parse.finish_peek, imageWritten_peek_rgb inside, imageWritten_peek_rgb (by rwa [args]), args]
  have pixel : i / 3 < s.cfgDim.width.toNat * s.cfgDim.height.toNat := by omega
  have positive : 0 < s.cfgDim.width.toNat := Nat.pos_of_ne_zero fun zero => by simp [zero] at pixel
  exact q_congr _ _ (Nat.mod_lt _ positive) (Nat.div_lt_of_lt_mul pixel) samples

end Sys2Proof.Proofs.Image
end

section
/-! Proofs of the statements on the later stages of CAPTURE in 44_capture_control.md: RESET and SEND (R208), ACC_INIT
and ACC_READ (R210), PARSE and DEMOSAIC (R211, R212). -/

namespace Sys2Proof.Proofs.CaptureStages

open Sys2Proof Sys2Proof.Machine Sys2Proof.Safety Sys2Proof.Proofs.LinkRequest Sys2Proof.Proofs.Reads
  Sys2Proof.Proofs.Image Sys2Proof.Proofs.Parse Sys2Proof.Proofs.CaptureControl

/-! ### RESET and SEND (R208) -/

theorem captureStage_of_resetLink {s : State} (phase : s.capPhase = .resetLink) : s.captureStage = s.captureReset := by
  rw [State.captureStage, phase]

theorem captureStage_of_sendRequest {s : State} (phase : s.capPhase = .sendRequest) :
    s.captureStage = s.captureSend := by
  rw [State.captureStage, phase]

theorem captureReset_of_acked {s : State} {ok : Bool} {acks : List Bool} {k : Nat} (acked : Acked s ok acks k) :
    s.captureReset =
      if ok then (linkWasReset s true acks k).setPhase .sendRequest
      else (linkWasReset s false acks k).failCapture .deviceUnavailable 2 s.frameLen := by
  rw [State.captureReset, resetLink_of_acked acked]
  cases ok <;> rfl

theorem captureSend_of_sent {s t : State} {ok : Bool} (sent : s.sendBytes = (ok, t)) :
    s.captureSend =
      if ok then (t.setSeq .commandSent).setPhase .accInit else t.failCapture .deviceUnavailable 3 t.frameLen := by
  rw [State.captureSend, sent]
  cases ok <;> rfl

/-- Settles O56: the answer to `LinkReset` decides RESET; SEND goes by the write, and by the flush after it. -/
theorem captureResetsTheLinkThenSends : Obligations.CaptureResetsTheLinkThenSends := by
  intro s turn
  rw [exec_capture, State.asCommand_engine turn]
  refine ⟨fun phase ok acks k acked => ?_, fun phase acks k failed => ?_,
    fun phase acks k written ok acks' k' flushed => ?_⟩
  · rw [captureStage_of_resetLink phase, captureReset_of_acked acked]
    rfl
  · rw [captureStage_of_sendRequest phase, captureSend_of_sent (sendBytes_of_write_failed failed)]
    rfl
  · rw [captureStage_of_sendRequest phase, captureSend_of_sent (sendBytes_of_written written flushed)]
    rfl

/-! ### ACC_INIT (R210) -/

theorem captureStage_of_accInit {s : State} (phase : s.capPhase = .accInit) : s.captureStage = s.captureAccInit := by
  rw [State.captureStage, phase]

/-- The window that the length policy opens, and whether its header is still to come. -/
def policyWindow (s : State) : Word × Bool :=
  match s.cfgAcc.lengthPolicy with
  | .configured => (BitVec.ofNat 32 (3 + s.cfgDim.width.toNat * s.cfgDim.height.toNat), false)
  | .headerFirst => (3, true)

theorem policyWindow_of_configured {s : State} (policy : s.cfgAcc.lengthPolicy = .configured) :
    policyWindow s = (BitVec.ofNat 32 (3 + s.cfgDim.width.toNat * s.cfgDim.height.toNat), false) := by
  rw [policyWindow, policy]

theorem policyWindow_of_headerFirst {s : State} (policy : s.cfgAcc.lengthPolicy = .headerFirst) :
    policyWindow s = (3, true) := by
  rw [policyWindow, policy]

/-- The state with the counters cleared and the window open. -/
def windowOpened (s : State) : State :=
  { s with
    status := { s.status with seqState := .accumulating }
    accCount := 0, accAttempts := 0, accMax := s.cfgAcc.maxAttempts
    accExpected := (policyWindow s).1, accHdrPending := (policyWindow s).2 }

theorem openWindow_eq_windowOpened (s : State) :
    (s.setSeq .accumulating).clearCounters.openWindow = windowOpened s := by
  cases policy : s.cfgAcc.lengthPolicy with
  | configured =>
    rw [windowOpened, policyWindow_of_configured policy, State.openWindow]
    simp only [State.clearCounters_cfgAcc, State.setSeq_cfgAcc, policy]
    rfl
  | headerFirst =>
    rw [windowOpened, policyWindow_of_headerFirst policy, State.openWindow]
    simp only [State.clearCounters_cfgAcc, State.setSeq_cfgAcc, policy]
    rfl

theorem captureAccInit_eq (s : State) :
    s.captureAccInit =
      if s.cfgAcc.maxAttempts = 0 then (windowOpened s).failCapture .acquisitionTimeout 0 (policyWindow s).1
      else (windowOpened s).setPhase .accRead := by
  rw [State.captureAccInit, openWindow_eq_windowOpened]
  rfl

/-- Settles O57: the two policies, each without a budget and with one. -/
theorem captureOpensTheWindow : Obligations.CaptureOpensTheWindow := by
  intro s turn phase s1 configured
  rw [exec_capture, State.asCommand_engine turn, captureStage_of_accInit phase, captureAccInit_eq, windowOpened]
  refine ⟨fun policy noBudget => ?_, fun policy budget => ?_, fun policy noBudget => ?_, fun policy budget => ?_⟩
  · rw [if_pos noBudget, policyWindow_of_configured policy]
  · rw [if_neg budget, policyWindow_of_configured policy]
    rfl
  · rw [if_pos noBudget, policyWindow_of_headerFirst policy]
  · rw [if_neg budget, policyWindow_of_headerFirst policy]
    rfl

/-! ### ACC_READ (R210, R132) -/

theorem captureStage_of_accRead {s : State} (phase : s.capPhase = .accRead) : s.captureStage = s.captureRead := by
  rw [State.captureStage, phase]

theorem captureRead_of_failed {s : State} {rx : List RxItem} {queue : List Byte} {k : Nat}
    (answered : ReadAnswered s none rx queue k) :
    s.captureRead = (readCounted s rx queue k).failCapture .deviceUnavailable 4 s.frameLen := by
  rw [State.captureRead, readStep_of_failed answered]
  rfl

/-- The completion test of a read that brought bytes looks at the window after the header hook. -/
theorem captureRead_of_chunk {s : State} {chunk : List Byte} {rx : List RxItem} {queue : List Byte} {k : Nat}
    (answered : ReadAnswered s (some chunk) rx queue k) :
    s.captureRead =
      if (readAppended s chunk rx queue k).headerHook.accCount =
          (readAppended s chunk rx queue k).headerHook.accExpected then
        (readAppended s chunk rx queue k).headerHook.setPhase .parse
      else if s.accAttempts + 1 = s.accMax.setWidth 32 then
        (readAppended s chunk rx queue k).headerHook.failCapture .acquisitionTimeout
          (readAppended s chunk rx queue k).headerHook.accCount
          (readAppended s chunk rx queue k).headerHook.accExpected
      else (readAppended s chunk rx queue k).headerHook := by
  have budget : (readAppended s chunk rx queue k).headerHook.budgetSpent =
      (s.accAttempts + 1 == s.accMax.setWidth 32) := by
    rw [State.headerHook_spec]
    rfl
  rw [State.captureRead, readStep_of_chunk answered]
  simp only [budget, beq_iff_eq]

/-- Settles O58: the failed read, and the completion test after the header hook. -/
theorem captureReadStep : Obligations.CaptureReadStep := by
  intro s turn phase answer rx queue k answered
  rw [exec_capture, State.asCommand_engine turn, captureStage_of_accRead phase]
  refine ⟨?_, ?_⟩
  · rintro rfl
    rw [captureRead_of_failed answered]
    rfl
  · rintro chunk rfl n s2 s3
    have hooked : (readAppended s chunk rx queue k).headerHook = s3 := rfl
    have attempts : s3.accAttempts = s.accAttempts + 1 := by
      rw [← hooked, State.headerHook_spec]
      rfl
    rw [captureRead_of_chunk answered, hooked]
    refine ⟨fun full => ?_, fun missing spent => ?_, fun missing left => ?_⟩
    · rw [if_pos full, State.setPhase]
    · rw [if_neg missing, if_pos (attempts.symm.trans spent)]
    · rw [if_neg missing, if_neg fun spent => left (attempts.trans spent)]

/-! ### PARSE and DEMOSAIC (R211, R212) -/

theorem captureStage_of_parse {s : State} (phase : s.capPhase = .parse) : s.captureStage = s.captureParse := by
  rw [State.captureStage, phase]

theorem captureStage_of_demosaic {s : State} (phase : s.capPhase = .demosaic) :
    s.captureStage = s.captureDemosaic := by
  rw [State.captureStage, phase]

theorem captureParse_of_malformed {s t : State} {info0 info1 : Word}
    (malformed : s.parseFrame = (some (info0, info1), t)) :
    s.captureParse = t.failCapture .malformedFrame info0 info1 := by
  rw [State.captureParse, malformed]

theorem captureParse_of_parsed {s t : State} (parsed : s.parseFrame = (none, t)) :
    s.captureParse = (t.setSeq .headerParsed).setPhase .demosaic := by
  rw [State.captureParse, parsed]

/-- The dimensions of the frame header. -/
def hdrDim (s : State) : Dim := { width := s.hdr.width, height := s.hdr.height }

/-- The state a CAPTURE ends in: the image written, and a link that it opened closed. -/
def captured (s : State) (layout : Layout) : State :=
  State.finish
    { imageWritten s layout (hdrDim s) with
      status :=
        { s.status with
          seqState := .demosaiced
          linkOpen := if s.openedHere then false else s.status.linkOpen }
      linkLog := if s.openedHere then s.linkLog ++ [.linkClose] else s.linkLog
      openedHere := false }
    .none 0 0

theorem captureDemosaic_of_supported {s : State} {layout : Layout}
    (supported : layoutOfPattern s.cfgDemosaic.pattern = some layout) : s.captureDemosaic = captured s layout := by
  rw [State.captureDemosaic, demosaicInto_of_supported supported]
  dsimp only
  rw [State.captureCleanUp_spec]
  rfl

theorem captured_peek (s : State) (layout : Layout) (space : Space) (addr : Nat) :
    (captured s layout).peek space addr = (imageWritten s layout (hdrDim s)).peek space addr :=
  State.peek_congr (by cases space <;> rfl) addr

/-- Settles O59: the exits of the parser and of the demosaic unit, each followed by what CAPTURE adds. -/
theorem captureParsesThenDemosaics : Obligations.CaptureParsesThenDemosaics := by
  intro s turn
  rw [exec_capture, State.asCommand_engine turn]
  refine ⟨fun phase short => ?_, fun phase full => ⟨fun wrong => ?_, fun right => ?_⟩, fun phase layout supported => ?_⟩
  · rw [captureStage_of_parse phase, captureParse_of_malformed (parseFrame_of_short short)]
  · rw [captureStage_of_parse phase, captureParse_of_malformed (parseFrame_of_length_ne full wrong)]
    rfl
  · rw [captureStage_of_parse phase, captureParse_of_parsed (parseFrame_of_length_eq full right)]
    have sameMemory (space : Space) (addr : Nat) :
        (((payloadCopied s).setSeq .headerParsed).setPhase .demosaic).peek space addr =
          (payloadCopied s).peek space addr :=
      State.peek_congr (by cases space <;> rfl) addr
    refine ⟨_, rfl, fun i inside => ?_, fun space addr outside => ?_, rfl⟩
    · rw [sameMemory, payloadCopied_peek_mosaic inside]
    · rw [sameMemory, payloadCopied_peek_of_outside outside]
  · rw [captureStage_of_demosaic phase, captureDemosaic_of_supported supported]
    refine ⟨_, rfl, fun x y insideX insideY => ⟨?_, ?_, ?_⟩, fun space addr outside => ?_, rfl⟩
    · exact (captured_peek ..).trans (imageWritten_peek_pixel insideX insideY (j := 0) (by decide))
    · exact (captured_peek ..).trans (imageWritten_peek_pixel insideX insideY (j := 1) (by decide))
    · exact (captured_peek ..).trans (imageWritten_peek_pixel insideX insideY (j := 2) (by decide))
    · exact (captured_peek ..).trans (imageWritten_peek_of_outside outside)

end Sys2Proof.Proofs.CaptureStages
end

section
/-! What the engine's steps leave unchanged: the configuration, the order of events, and every space that the running
command does not write (R71); and that none writes `SEQ_STATE = 5` (R213). After it the statements on all steps that
follow from it. -/

namespace Sys2Proof.Proofs.Frames

open Sys2Proof Sys2Proof.Machine Sys2Proof.Safety Sys2Proof.Proofs.Steps Sys2Proof.Proofs.Reads Sys2Proof.Proofs.Image
  Sys2Proof.Proofs.Parse Sys2Proof.Proofs.CaptureControl Sys2Proof.Proofs.CaptureStages

/-! ### The frame of a command -/

/-- What every engine step of the command `op` leaves unchanged. -/
structure Frame (op : Byte) (s t : State) : Prop where
  cfgDim : t.cfgDim = s.cfgDim
  cfgDemosaic : t.cfgDemosaic = s.cfgDemosaic
  cfgAcc : t.cfgAcc = s.cfgAcc
  req : t.req = s.req
  curOp : t.curOp = s.curOp
  schedule : t.schedule = s.schedule
  neverPersisted : s.status.seqState ≠ .persisted → t.status.seqState ≠ .persisted
  memory : ∀ space, writesSpace op space = false → t.memory space = s.memory space

theorem Frame.trans {op : Byte} {s t u : State} (first : Frame op s t) (second : Frame op t u) : Frame op s u where
  cfgDim := second.cfgDim.trans first.cfgDim
  cfgDemosaic := second.cfgDemosaic.trans first.cfgDemosaic
  cfgAcc := second.cfgAcc.trans first.cfgAcc
  req := second.req.trans first.req
  curOp := second.curOp.trans first.curOp
  schedule := second.schedule.trans first.schedule
  neverPersisted := fun start => second.neverPersisted (first.neverPersisted start)
  memory := fun space kept => (second.memory space kept).trans (first.memory space kept)

/-! ### The operations that the stages are made of -/

section
variable {op : Byte} (s : State)

theorem frame_finish (code : ErrCode) (info0 info1 : Word) : Frame op s (s.finish code info0 info1) :=
  ⟨rfl, rfl, rfl, rfl, rfl, rfl, id, fun space _ => by cases space <;> rfl⟩

theorem frame_setPhase (phase : CapPhase) : Frame op s (s.setPhase phase) :=
  ⟨rfl, rfl, rfl, rfl, rfl, rfl, id, fun space _ => by cases space <;> rfl⟩

theorem frame_setSeq {seq : SeqState} (named : seq ≠ .persisted) : Frame op s (s.setSeq seq) :=
  ⟨rfl, rfl, rfl, rfl, rfl, rfl, fun _ => named, fun space _ => by cases space <;> rfl⟩

theorem frame_closeLink : Frame op s s.closeLink :=
  ⟨rfl, rfl, rfl, rfl, rfl, rfl, id, fun space _ => by cases space <;> rfl⟩

theorem frame_captureCleanUp : Frame op s s.captureCleanUp := by
  rw [State.captureCleanUp_spec]
  exact ⟨rfl, rfl, rfl, rfl, rfl, rfl, id, fun space _ => by cases space <;> rfl⟩

theorem failureSeq_ne_persisted {before : SeqState} (start : before ≠ .persisted) (code : ErrCode) :
    failureSeq code before ≠ .persisted := by
  cases code <;> simp [failureSeq, start]

theorem frame_failCapture (code : ErrCode) (info0 info1 : Word) : Frame op s (s.failCapture code info0 info1) := by
  rw [failCapture_eq]
  exact ⟨rfl, rfl, rfl, rfl, rfl, rfl, fun start => failureSeq_ne_persisted start code,
    fun space _ => by cases space <;> rfl⟩

theorem frame_linkAck (issued : LinkOp) : Frame op s (s.linkAck issued).2 := by
  refine ⟨by simp, by simp, by simp, by simp, by simp, by simp, by simp, fun space _ => ?_⟩
  cases space <;> simp

theorem frame_resetLink : Frame op s s.resetLink.2 := by
  refine ⟨by simp, by simp, by simp, by simp, by simp, by simp, by simp, fun space _ => ?_⟩
  cases space <;> simp

theorem frame_sendBytes : Frame op s s.sendBytes.2 := by
  refine ⟨by simp, by simp, by simp, by simp, by simp, by simp, by simp, fun space _ => ?_⟩
  cases space <;> simp

theorem frame_clearCounters : Frame op s s.clearCounters :=
  ⟨rfl, rfl, rfl, rfl, rfl, rfl, id, fun space _ => by cases space <;> rfl⟩

theorem frame_headerHook : Frame op s s.headerHook := by
  rw [State.headerHook_spec]
  exact ⟨rfl, rfl, rfl, rfl, rfl, rfl, id, fun space _ => by cases space <;> rfl⟩

theorem frame_windowOpened : Frame op s (windowOpened s) :=
  ⟨rfl, rfl, rfl, rfl, rfl, rfl, fun _ => nofun, fun space _ => by cases space <;> rfl⟩

/-- A read writes `FRAME` alone. -/
theorem frame_readStep (writes : writesSpace op .frame = true) : Frame op s s.readStep.2 := by
  obtain ⟨answer, rx, queue, k, answered, -⟩ := exists_readAnswered s
  cases answer with
  | none =>
    rw [readStep_of_failed answered]
    exact ⟨rfl, rfl, rfl, rfl, rfl, rfl, id, fun space _ => by cases space <;> rfl⟩
  | some chunk =>
    rw [readStep_of_chunk answered]
    refine ⟨rfl, rfl, rfl, rfl, rfl, rfl, id, fun space kept => ?_⟩
    cases space with
    | frame => simp [writes] at kept
    | mosaic | rgb => rfl

/-- The parser writes `MOSAIC` alone. -/
theorem frame_parseFrame (writes : writesSpace op .mosaic = true) : Frame op s s.parseFrame.2 := by
  rcases s.parseFrame_spec with ⟨-, parsed⟩ | ⟨-, n, -, -, hdr, -, ⟨-, parsed⟩ | ⟨-, parsed⟩⟩ <;> rw [parsed]
  case inr.inr =>
    refine ⟨rfl, rfl, rfl, rfl, rfl, rfl, id, fun space kept => ?_⟩
    cases space with
    | mosaic => simp [writes] at kept
    | frame | rgb => rfl
  all_goals exact ⟨rfl, rfl, rfl, rfl, rfl, rfl, id, fun space _ => by cases space <;> rfl⟩

/-- The demosaic unit writes `RGB` alone. -/
theorem frame_imageWritten (writes : writesSpace op .rgb = true) (layout : Layout) (dim : Dim) :
    Frame op s (imageWritten s layout dim) := by
  refine ⟨rfl, rfl, rfl, rfl, rfl, rfl, id, fun space kept => ?_⟩
  cases space with
  | rgb => simp [writes] at kept
  | mosaic | frame => rfl

/-! ### The stages -/

theorem frame_demosaicStage (writes : writesSpace op .rgb = true) : Frame op s s.demosaicStage := by
  cases found : layoutOfPattern s.cfgDemosaic.pattern with
  | none =>
    rw [Demosaic.demosaicStage_of_unsupported found]
    exact frame_finish ..
  | some layout =>
    rw [demosaicStage_of_supported found]
    exact (frame_imageWritten s writes layout s.cfgDim).trans (frame_finish ..)

theorem frame_parseStage (writes : writesSpace op .mosaic = true) : Frame op s s.parseStage := by
  have parsed := frame_parseFrame s writes
  unfold State.parseStage
  split <;> rename_i answered <;> rw [answered] at parsed
  · exact parsed.trans (frame_finish ..)
  · exact parsed.trans (frame_finish ..)

theorem frame_accumulateStart : Frame op s s.accumulateStart := by
  have cleared := frame_clearCounters (op := op) s
  unfold State.accumulateStart
  dsimp only
  split_ifs
  · exact frame_finish ..
  · exact cleared.trans (frame_finish ..)
  · exact cleared.trans (frame_finish ..)
  · exact ⟨rfl, rfl, rfl, rfl, rfl, rfl, id, fun space _ => by cases space <;> rfl⟩
  · exact frame_finish ..

theorem frame_accumulateRead (writes : writesSpace op .frame = true) : Frame op s s.accumulateRead := by
  have read := frame_readStep s writes
  unfold State.accumulateRead
  split <;> rename_i answered <;> rw [answered] at read
  · exact read.trans (frame_finish ..)
  · split_ifs
    · exact read.trans (frame_finish ..)
    · exact read.trans (frame_finish ..)
    · exact read

theorem frame_sendRequestStage : Frame op s s.sendRequestStage := by
  have sent := frame_sendBytes (op := op) s
  unfold State.sendRequestStage
  split_ifs
  · split <;> rename_i answered <;> rw [answered] at sent
    · exact sent.trans (frame_finish ..)
    · exact sent.trans (frame_finish ..)
  · exact frame_finish ..

theorem frame_linkResetStage : Frame op s s.linkResetStage := by
  have reset := frame_resetLink (op := op) s
  unfold State.linkResetStage
  split_ifs
  · split <;> rename_i answered <;> rw [answered] at reset
    · exact reset.trans (frame_finish ..)
    · exact reset.trans (frame_finish ..)
  · exact frame_finish ..

theorem frame_linkOpenStage : Frame op s s.linkOpenStage := by
  have acked := frame_linkAck (op := op) s .linkOpen
  unfold State.linkOpenStage
  split_ifs
  · exact frame_finish ..
  · split <;> rename_i answered <;> rw [answered] at acked
    · exact acked.trans (frame_finish ..)
    · exact acked.trans ⟨rfl, rfl, rfl, rfl, rfl, rfl, id, fun space _ => by cases space <;> rfl⟩

theorem frame_linkCloseStage : Frame op s s.linkCloseStage := by
  unfold State.linkCloseStage
  split_ifs
  · exact (frame_closeLink s).trans (frame_finish ..)
  · exact frame_finish ..

theorem frame_captureCheck : Frame op s s.captureCheck := by
  unfold State.captureCheck
  split
  · exact frame_failCapture ..
  · exact frame_setPhase ..

theorem frame_captureOpen : Frame op s s.captureOpen := by
  have acked := frame_linkAck (op := op) s .linkOpen
  unfold State.captureOpen
  split_ifs
  · exact frame_setPhase ..
  · split <;> rename_i answered <;> rw [answered] at acked
    · exact acked.trans (frame_failCapture ..)
    · exact acked.trans ⟨rfl, rfl, rfl, rfl, rfl, rfl, id, fun space _ => by cases space <;> rfl⟩

theorem frame_captureReset : Frame op s s.captureReset := by
  have reset := frame_resetLink (op := op) s
  unfold State.captureReset
  split <;> rename_i answered <;> rw [answered] at reset
  · exact reset.trans (frame_failCapture ..)
  · exact reset.trans (frame_setPhase ..)

theorem frame_captureSend : Frame op s s.captureSend := by
  have sent := frame_sendBytes (op := op) s
  unfold State.captureSend
  split <;> rename_i answered <;> rw [answered] at sent
  · exact sent.trans (frame_failCapture ..)
  · exact sent.trans ((frame_setSeq (seq := .commandSent) _ nofun).trans (frame_setPhase ..))

theorem frame_captureAccInit : Frame op s s.captureAccInit := by
  rw [captureAccInit_eq]
  split_ifs
  · exact (frame_windowOpened s).trans (frame_failCapture ..)
  · exact (frame_windowOpened s).trans (frame_setPhase ..)

theorem frame_captureRead (writes : writesSpace op .frame = true) : Frame op s s.captureRead := by
  have read := frame_readStep s writes
  unfold State.captureRead
  split <;> rename_i answered <;> rw [answered] at read
  · exact read.trans (frame_failCapture ..)
  · have hooked := read.trans (frame_headerHook _)
    dsimp only
    split_ifs
    · exact hooked.trans (frame_setPhase ..)
    · exact hooked.trans (frame_failCapture ..)
    · exact hooked

theorem frame_captureParse (writes : writesSpace op .mosaic = true) : Frame op s s.captureParse := by
  have parsed := frame_parseFrame s writes
  unfold State.captureParse
  split <;> rename_i answered <;> rw [answered] at parsed
  · exact parsed.trans (frame_failCapture ..)
  · exact parsed.trans ((frame_setSeq (seq := .headerParsed) _ nofun).trans (frame_setPhase ..))

theorem frame_captureDemosaic (writes : writesSpace op .rgb = true) : Frame op s s.captureDemosaic := by
  cases found : layoutOfPattern s.cfgDemosaic.pattern with
  | none =>
    rw [State.captureDemosaic, State.demosaicInto, found]
    exact frame_failCapture ..
  | some layout =>
    rw [State.captureDemosaic, demosaicInto_of_supported found]
    exact (frame_imageWritten s writes layout _).trans
      ((frame_setSeq (seq := .demosaiced) _ nofun).trans ((frame_captureCleanUp _).trans (frame_finish ..)))

end

/-- Every engine step keeps the frame of the running command. -/
theorem engineStep_frame {s t : State} (stage : EngineStep s t) : Frame s.curOp s t := by
  cases stage with
  | demosaic op => exact frame_demosaicStage s (by rw [op]; rfl)
  | parse op => exact frame_parseStage s (by rw [op]; rfl)
  | accumulateStart => exact frame_accumulateStart s
  | accumulateRead op => exact frame_accumulateRead s (by rw [op]; rfl)
  | sendRequest => exact frame_sendRequestStage s
  | linkReset => exact frame_linkResetStage s
  | captureCheck => exact frame_captureCheck s
  | captureOpen => exact frame_captureOpen s
  | captureReset => exact frame_captureReset s
  | captureSend => exact frame_captureSend s
  | captureAccInit => exact frame_captureAccInit s
  | captureRead op => exact frame_captureRead s (by rw [op]; rfl)
  | captureParse op => exact frame_captureParse s (by rw [op]; rfl)
  | captureDemosaic op => exact frame_captureDemosaic s (by rw [op]; rfl)
  | linkOpen => exact frame_linkOpenStage s
  | linkClose => exact frame_linkCloseStage s

/-! ### Packets -/

/-- What a packet does while a command runs: a dropped write, the end of the command by ABORT, or a change of the ports
alone. -/
theorem packetStep_busy_spec {s t : State} (busy : s.status.busy = true) (packet : PacketStep s t) :
    t = s.dropWrite ∨ t = s.abortRunning ∨
      ∃ reply encoded queue k,
        t = { s with hostReply := reply, encoded := encoded, linkQueue := queue, draws := k } := by
  cases packet with
  | regWrite index v =>
    rw [State.regWrite_busy busy]
    split_ifs
    · exact .inr (.inl rfl)
    · exact .inl rfl
  | memWrite space addr v => exact .inl (Memory.memWrite_of_busy s space addr v busy)
  | regRead index => exact .inr (.inr ⟨_, s.encoded, s.linkQueue, s.draws, rfl⟩)
  | memRead space addr =>
    obtain ⟨reply, k, read⟩ := s.memRead_spec space addr
    exact .inr (.inr ⟨reply, s.encoded, s.linkQueue, k, read⟩)
  | encode opcode param => exact .inr (.inr ⟨s.hostReply, _, s.linkQueue, s.draws, rfl⟩)
  | lineUp bytes => exact .inr (.inr ⟨s.hostReply, s.encoded, _, s.draws, rfl⟩)

/-- What a packet does while no command runs: the issue of a command, the fields of a register, a byte of a space, or a
change of the ports alone. -/
theorem packetStep_idle_spec {s t : State} (idle : s.status.busy = false) (packet : PacketStep s t) :
    (∃ v, t = s.issue v) ∨ (∃ index v, t = s.setRegister index v) ∨
      (∃ space addr v, addr < spaceSize space ∧ t = s.poke space addr [v]) ∨
      ∃ reply encoded queue k,
        t = { s with hostReply := reply, encoded := encoded, linkQueue := queue, draws := k } := by
  cases packet with
  | regWrite index v =>
    rw [State.regWrite_idle idle]
    split_ifs
    · exact .inl ⟨v, rfl⟩
    · exact .inr (.inl ⟨index, v, rfl⟩)
  | memWrite space addr v =>
    rcases s.memWrite_spec space addr v with ⟨busy, -⟩ | ⟨-, -, same⟩ | ⟨-, inRange, written⟩
    · simp [idle] at busy
    · exact .inr (.inr (.inr ⟨s.hostReply, s.encoded, s.linkQueue, s.draws, same⟩))
    · exact .inr (.inr (.inl ⟨space, addr, v, inRange, written⟩))
  | regRead index => exact .inr (.inr (.inr ⟨_, s.encoded, s.linkQueue, s.draws, rfl⟩))
  | memRead space addr =>
    obtain ⟨reply, k, read⟩ := s.memRead_spec space addr
    exact .inr (.inr (.inr ⟨reply, s.encoded, s.linkQueue, k, read⟩))
  | encode opcode param => exact .inr (.inr (.inr ⟨s.hostReply, _, s.linkQueue, s.draws, rfl⟩))
  | lineUp bytes => exact .inr (.inr (.inr ⟨s.hostReply, s.encoded, _, s.draws, rfl⟩))

theorem frame_abortRunning {op : Byte} (s : State) : Frame op s s.abortRunning := by
  unfold State.abortRunning
  dsimp only
  split_ifs
  · exact frame_failCapture ..
  · exact frame_finish ..

/-- A packet leaves the frame of a running command unchanged. -/
theorem packetStep_frame {op : Byte} {s t : State} (busy : s.status.busy = true) (packet : PacketStep s t) :
    Frame op s t := by
  rcases packetStep_busy_spec busy packet with rfl | rfl | ⟨reply, encoded, queue, k, rfl⟩
  · exact ⟨rfl, rfl, rfl, rfl, rfl, rfl, id, fun space _ => by cases space <;> rfl⟩
  · exact frame_abortRunning s
  · exact ⟨rfl, rfl, rfl, rfl, rfl, rfl, id, fun space _ => by cases space <;> rfl⟩

/-- The issue of a command leaves `SEQ_STATE` as it was or sets it to IDLE. -/
theorem issue_seqState (s : State) (v : Word) :
    (s.issue v).status.seqState = s.status.seqState ∨ (s.issue v).status.seqState = .idle := by
  rcases s.issue_spec v with ⟨-, issued⟩ | ⟨-, issued⟩ | ⟨-, issued⟩ | ⟨-, issued⟩ | ⟨i, -, -, -, -, issued⟩ <;>
    simp [issued]

theorem setRegister_status (s : State) (index : BitVec 4) (v : Word) : (s.setRegister index v).status = s.status := by
  rw [State.setRegister_spec]

theorem packetStep_neverPersisted {s t : State} (start : s.status.seqState ≠ .persisted) (packet : PacketStep s t) :
    t.status.seqState ≠ .persisted := by
  cases running : s.status.busy with
  | true => exact (packetStep_frame (op := 0) running packet).neverPersisted start
  | false =>
    rcases packetStep_idle_spec running packet with ⟨v, rfl⟩ | ⟨index, v, rfl⟩ | ⟨space, addr, v, -, rfl⟩ |
      ⟨reply, encoded, queue, k, rfl⟩
    · rcases issue_seqState s v with same | idle
      · rwa [same]
      · rw [idle]
        nofun
    · rwa [setRegister_status]
    · rwa [State.poke_status]
    · exact start

/-! ### The statements on all steps -/

/-- Settles O14: a step keeps `SEQ_STATE`, or writes one of the other states. -/
theorem persistedIsNeverWritten : Obligations.PersistedIsNeverWritten := by
  intro s t start next
  cases stepTo_of_step next with
  | idle rest turn idle => exact start
  | engine rest turn busy stage => exact (engineStep_frame stage).neverPersisted start
  | reset rest first => nofun
  | packet p rest first packet => exact packetStep_neverPersisted (by exact start) packet

/-- Settles O16: at the engine's turn the step is the engine's, and it keeps its frame. -/
theorem engineWritesOnlyItsSpaces : Obligations.EngineWritesOnlyItsSpaces := by
  intro s t busy turn next space kept addr
  cases stepTo_of_step next with
  | idle rest _ idle => simp [busy] at idle
  | engine rest _ _ stage => exact State.peek_congr ((engineStep_frame stage).memory space kept) addr
  | reset rest first => simp [first] at turn
  | packet p rest first packet => simp [first] at turn

/-- Settles O17: the engine's steps and the packets keep the configuration of a running command. -/
theorem configurationIsStableWhileBusy : Obligations.ConfigurationIsStableWhileBusy := by
  intro s t busy notReset next
  cases stepTo_of_step next with
  | idle rest turn idle => exact ⟨rfl, rfl, rfl, rfl⟩
  | engine rest turn _ stage =>
    have frame := engineStep_frame stage
    exact ⟨frame.cfgDim, frame.cfgDemosaic, frame.cfgAcc, frame.req⟩
  | reset rest first => exact absurd first (notReset rest)
  | packet p rest first packet =>
    have frame := packetStep_frame (op := s.curOp) (by exact busy) packet
    exact ⟨frame.cfgDim, frame.cfgDemosaic, frame.cfgAcc, frame.req⟩

end Sys2Proof.Proofs.Frames
end

section
/-! The invariant of the machine: it holds at power-on, and every step keeps it. One lemma for each way a step can go;
those of the reads carry the window of an accumulation (R121-R129) and the header part of it (R132, R210). -/

namespace Sys2Proof.Proofs.Invariant

open Sys2Proof Sys2Proof.Machine Sys2Proof.Safety Sys2Proof.Proofs.Steps Sys2Proof.Proofs.Reads Sys2Proof.Proofs.Image
  Sys2Proof.Proofs.Parse Sys2Proof.Proofs.CaptureControl Sys2Proof.Proofs.CaptureStages Sys2Proof.Proofs.LinkRequest
  Sys2Proof.Proofs.Frames

/-! ### The part that does not ask whether a command runs -/

/-- The clauses of the invariant on idle and busy states alike. -/
structure Resting (s : State) : Prop where
  neverPersisted : s.status.seqState ≠ .persisted
  memories : MemoriesWf s
  frameLen : s.frameLen.toNat ≤ Config.frameCap
  attempts : s.accAttempts.toNat ≤ s.accMax.toNat

theorem resting_of_inv {s : State} (inv : Inv s) : Resting s :=
  ⟨inv.neverPersisted, inv.memories, inv.frameLen, inv.attempts⟩

/-- While idle nothing else is asked but that no CAPTURE holds the link. -/
theorem inv_of_idle {s : State} (rest : Resting s) (idle : s.status.busy = false) (notOpened : s.openedHere = false) :
    Inv s where
  neverPersisted := rest.neverPersisted
  memories := rest.memories
  frameLen := rest.frameLen
  attempts := rest.attempts
  openedHere := fun opened => by simp [notOpened] at opened
  running := fun busy => by simp [idle] at busy
  otherSeq := fun busy => by simp [idle] at busy
  captureSeq := fun busy => by simp [idle] at busy
  capture := fun busy => by simp [idle] at busy
  window := fun reading => absurd reading.1 (by simp [idle])

theorem inv_finish {s : State} (rest : Resting s) (notOpened : s.openedHere = false) (code : ErrCode)
    (info0 info1 : Word) : Inv (s.finish code info0 info1) :=
  inv_of_idle ⟨rest.neverPersisted, rest.memories, rest.frameLen, rest.attempts⟩ rfl notOpened

/-- The failure of a CAPTURE releases the link itself. -/
theorem inv_failCapture {s : State} (rest : Resting s) (code : ErrCode) (info0 info1 : Word) :
    Inv (s.failCapture code info0 info1) := by
  rw [failCapture_eq]
  refine inv_finish ?_ rfl code info0 info1
  exact ⟨failureSeq_ne_persisted rest.neverPersisted code, rest.memories, rest.frameLen, rest.attempts⟩

/-- Only a CAPTURE opens the link on its own account. -/
theorem notOpened_of_other {s : State} (inv : Inv s) (other : s.curOp ≠ 0x06) : s.openedHere = false := by
  by_contra opened
  obtain ⟨-, capture, -⟩ := inv.openedHere (by simpa using opened)
  exact other capture

theorem notOpened_of_idle {s : State} (inv : Inv s) (idle : s.status.busy = false) : s.openedHere = false := by
  by_contra opened
  obtain ⟨busy, -, -⟩ := inv.openedHere (by simpa using opened)
  simp [idle] at busy

/-! ### The conditions of the phases of a CAPTURE (R206-R212) -/

section
variable {s : State}

theorem captureReady_check (phase : s.capPhase = .check) : CaptureReady s ↔ s.openedHere = false := by
  rw [CaptureReady, phase]

theorem captureReady_openLink (phase : s.capPhase = .openLink) :
    CaptureReady s ↔ s.openedHere = false ∧ s.cfgDemosaic.pattern.toNat ≤ 3 := by
  rw [CaptureReady, phase]

theorem captureReady_resetLink (phase : s.capPhase = .resetLink) :
    CaptureReady s ↔ s.status.linkOpen = true ∧ s.cfgDemosaic.pattern.toNat ≤ 3 := by
  rw [CaptureReady, phase]

theorem captureReady_sendRequest (phase : s.capPhase = .sendRequest) :
    CaptureReady s ↔ s.status.linkOpen = true ∧ s.cfgDemosaic.pattern.toNat ≤ 3 ∧ s.frameLen = 0 := by
  rw [CaptureReady, phase]

theorem captureReady_accInit (phase : s.capPhase = .accInit) :
    CaptureReady s ↔ s.status.linkOpen = true ∧ s.cfgDemosaic.pattern.toNat ≤ 3 ∧ s.frameLen = 0 := by
  rw [CaptureReady, phase]

theorem captureReady_accRead (phase : s.capPhase = .accRead) :
    CaptureReady s ↔
      s.status.linkOpen = true ∧ s.cfgDemosaic.pattern.toNat ≤ 3 ∧ s.frameLen = s.accCount ∧ HeaderPart s := by
  rw [CaptureReady, phase]

theorem captureReady_parse (phase : s.capPhase = .parse) :
    CaptureReady s ↔
      s.status.linkOpen = true ∧ s.cfgDemosaic.pattern.toNat ≤ 3 ∧ s.frameLen = s.accCount ∧
        s.accCount = s.accExpected ∧
        (s.cfgAcc.lengthPolicy = .headerFirst → s.accExpected.toNat = declaredWindow s) := by
  rw [CaptureReady, phase]

theorem captureReady_demosaic (phase : s.capPhase = .demosaic) :
    CaptureReady s ↔ s.status.linkOpen = true ∧ s.cfgDemosaic.pattern.toNat ≤ 3 ∧ s.hdr.valid = true := by
  rw [CaptureReady, phase]

end

/-! ### Changes of the ports and of `IGNORED` -/

/-- No clause speaks of the ports, of the order of events or of `IGNORED`. -/
theorem inv_with_ports {s : State} (inv : Inv s) (ignored : Bool) (reply : Word) (encoded : List Byte)
    (log : List LinkOp) (acks : List Bool) (rx : List RxItem) (queue : List Byte) (k : Nat) (schedule : List Event)
    (turn : Agent) :
    Inv
      { s with
        status := { s.status with ignored := ignored }
        hostReply := reply, encoded := encoded, linkLog := log, linkAcks := acks, linkRx := rx
        linkQueue := queue, draws := k, schedule := schedule, turn := turn } where
  neverPersisted := inv.neverPersisted
  memories := inv.memories
  frameLen := inv.frameLen
  attempts := inv.attempts
  openedHere := inv.openedHere
  running := fun busy =>
    have running := inv.running busy
    ⟨running.command, running.record, running.lastOp⟩
  otherSeq := inv.otherSeq
  captureSeq := inv.captureSeq
  capture := fun busy op => by
    have ready := inv.capture busy op
    cases phase : s.capPhase with
    | accRead =>
      obtain ⟨isOpen, supported, same, header⟩ := (captureReady_accRead phase).1 ready
      exact (captureReady_accRead rfl).2
        ⟨isOpen, supported, same, header.configured, header.pending, header.extended⟩
    | _ =>
      simp only [CaptureReady, phase] at ready ⊢
      exact ready
  window := fun reading =>
    have window := inv.window reading
    ⟨window.linkOpen, window.missing, window.budget, window.room⟩

theorem inv_dropWrite {s : State} (inv : Inv s) : Inv s.dropWrite := inv_with_ports inv ..

theorem inv_with_event {s : State} (inv : Inv s) (rest : List Event) (turn : Agent) :
    Inv { s with schedule := rest, turn := turn } := inv_with_ports inv ..

/-! ### Commands other than ACCUMULATE and CAPTURE -/

/-- An image fits in `RGB`. -/
theorem resting_imageWritten {s : State} (rest : Resting s) (layout : Layout) (dim : Dim) :
    Resting (imageWritten s layout dim) := by
  obtain ⟨⟨mosaicWf, rgbWf, frameWf⟩, mosaicIn, rgbIn, frameIn⟩ := rest.memories
  refine ⟨rest.neverPersisted, ⟨⟨mosaicWf, Memory.writeBlock_wf rgbWf _ _, frameWf⟩, mosaicIn,
    Memory.writeBlock_within rgbIn ?_, frameIn⟩, rest.frameLen, rest.attempts⟩
  have size : dim.width.toNat * dim.height.toNat ≤ 255 * 255 := Nat.mul_le_mul (by omega) (by omega)
  have length : ((demosaicArgs s layout dim).image (s.peek .mosaic)).length =
      3 * (dim.width.toNat * dim.height.toNat) := DemosaicArgs.image_length ..
  rw [length, Config.rgbCap]
  omega

/-- A payload fits in `MOSAIC`. -/
theorem resting_parseFrame {s : State} (rest : Resting s) : Resting s.parseFrame.2 := by
  obtain ⟨⟨mosaicWf, rgbWf, frameWf⟩, mosaicIn, rgbIn, frameIn⟩ := rest.memories
  rcases s.parseFrame_spec with ⟨-, parsed⟩ | ⟨-, n, -, fits, hdr, -, ⟨-, parsed⟩ | ⟨-, parsed⟩⟩ <;> rw [parsed]
  case inr.inr =>
    refine ⟨rest.neverPersisted, ⟨⟨Memory.writeBlock_wf mosaicWf _ _, rgbWf, frameWf⟩,
      Memory.writeBlock_within mosaicIn ?_, rgbIn, frameIn⟩, rest.frameLen, rest.attempts⟩
    rwa [State.peekBlock_length, Nat.zero_add]
  all_goals exact ⟨rest.neverPersisted, rest.memories, rest.frameLen, rest.attempts⟩

section
variable {s : State}

theorem inv_demosaicStage (rest : Resting s) (notOpened : s.openedHere = false) : Inv s.demosaicStage := by
  cases found : layoutOfPattern s.cfgDemosaic.pattern with
  | none =>
    rw [Demosaic.demosaicStage_of_unsupported found]
    exact inv_finish rest notOpened ..
  | some layout =>
    rw [demosaicStage_of_supported found]
    exact inv_finish (resting_imageWritten rest layout _) notOpened ..

/-- All that the parser can change before the command's exit. -/
theorem parseFrame_eq (s : State) :
    s.parseFrame.2 = { s with hdr := s.parseFrame.2.hdr, mosaic := s.parseFrame.2.mosaic } := by
  rcases s.parseFrame_spec with ⟨-, parsed⟩ | ⟨-, n, -, -, hdr, -, ⟨-, parsed⟩ | ⟨-, parsed⟩⟩
  · rw [parsed]
  · rw [parsed]
  · rw [parsed]
    rfl

theorem parseFrame_openedHere (s : State) : s.parseFrame.2.openedHere = s.openedHere := by rw [parseFrame_eq]

theorem inv_parseStage (rest : Resting s) (notOpened : s.openedHere = false) : Inv s.parseStage := by
  have parsed := resting_parseFrame rest
  have opened : s.parseFrame.2.openedHere = false := (parseFrame_openedHere s).trans notOpened
  unfold State.parseStage
  split <;> rename_i answered <;> rw [answered] at parsed opened
  · exact inv_finish parsed opened ..
  · exact inv_finish parsed opened ..

theorem resting_linkWasReset (rest : Resting s) (ok : Bool) (acks : List Bool) (k : Nat) :
    Resting (linkWasReset s ok acks k) := by
  cases ok
  · exact ⟨rest.neverPersisted, rest.memories, rest.frameLen, rest.attempts⟩
  · exact ⟨rest.neverPersisted, rest.memories, Nat.zero_le _, rest.attempts⟩

theorem linkWasReset_openedHere (ok : Bool) (acks : List Bool) (k : Nat) :
    (linkWasReset s ok acks k).openedHere = s.openedHere := by
  cases ok <;> rfl

/-- Every operation of the link is answered. -/
theorem exists_acked (s : State) : ∃ ok acks k, Acked s ok acks k := by
  cases answers : s.linkAcks with
  | nil => exact ⟨_, [], _, .inr ⟨answers, rfl, rfl, rfl⟩⟩
  | cons ok acks => exact ⟨ok, acks, _, .inl ⟨answers, rfl⟩⟩

theorem inv_linkResetStage (rest : Resting s) (notOpened : s.openedHere = false) : Inv s.linkResetStage := by
  cases isOpen : s.status.linkOpen with
  | false =>
    rw [linkResetStage_of_closed isOpen]
    exact inv_finish rest notOpened ..
  | true =>
    obtain ⟨ok, acks, k, acked⟩ := exists_acked s
    rw [linkResetStage_of_open isOpen acked]
    split_ifs
    · exact inv_finish (resting_linkWasReset rest ..) (by rwa [linkWasReset_openedHere]) ..
    · exact inv_finish (resting_linkWasReset rest ..) (by rwa [linkWasReset_openedHere]) ..

theorem resting_sendBytes (rest : Resting s) : Resting s.sendBytes.2 := by
  refine ⟨by simpa using rest.neverPersisted, ?_, by simpa using rest.frameLen, by simpa using rest.attempts⟩
  simpa [MemoriesWf] using rest.memories

theorem inv_sendRequestStage (rest : Resting s) (notOpened : s.openedHere = false) : Inv s.sendRequestStage := by
  have sent := resting_sendBytes rest
  have opened : s.sendBytes.2.openedHere = false := by simpa using notOpened
  unfold State.sendRequestStage
  split_ifs
  · split <;> rename_i answered <;> rw [answered] at sent opened
    · exact inv_finish sent opened ..
    · exact inv_finish sent opened ..
  · exact inv_finish rest notOpened ..

theorem inv_linkOpenStage (rest : Resting s) (notOpened : s.openedHere = false) : Inv s.linkOpenStage := by
  cases isOpen : s.status.linkOpen with
  | true =>
    rw [linkOpenStage_of_open isOpen]
    exact inv_finish rest notOpened ..
  | false =>
    obtain ⟨ok, acks, k, acked⟩ := exists_acked s
    rw [linkOpenStage_of_closed isOpen acked]
    split_ifs <;> refine inv_finish ?_ (by exact notOpened) .. <;>
      exact ⟨rest.neverPersisted, rest.memories, rest.frameLen, rest.attempts⟩

theorem inv_linkCloseStage (rest : Resting s) (notOpened : s.openedHere = false) : Inv s.linkCloseStage := by
  unfold State.linkCloseStage
  split_ifs
  · refine inv_finish ?_ (by exact notOpened) ..
    exact ⟨rest.neverPersisted, rest.memories, rest.frameLen, rest.attempts⟩
  · exact inv_finish rest notOpened ..

end

/-! ### The read step and the window (R121-R129) -/

theorem toNat_add_ofNat {x : Word} {n : Nat} (small : x.toNat + n < 2 ^ 32) :
    (x + BitVec.ofNat 32 n).toNat = x.toNat + n := by
  rw [BitVec.toNat_add, BitVec.toNat_ofNat, Nat.add_mod_mod, Nat.mod_eq_of_lt small]

section
variable {s : State} {chunk : List Byte} (rx : List RxItem) (queue : List Byte) (k : Nat)

theorem window_attempts (window : Window s) : (s.accAttempts + 1).toNat = s.accAttempts.toNat + 1 := by
  have budget := window.budget
  have small : s.accMax.toNat < 2 ^ 16 := s.accMax.isLt
  exact toNat_add_ofNat (n := 1) (by omega)

theorem window_frameLen (window : Window s) (short : chunk.length ≤ s.missing) :
    (s.frameLen + BitVec.ofNat 32 chunk.length).toNat = s.frameLen.toNat + chunk.length := by
  have room := window.room
  unfold State.missing at short
  exact toNat_add_ofNat (by rw [Config.frameCap] at room; omega)

theorem window_accCount (window : Window s) (short : chunk.length ≤ s.missing) :
    (s.accCount + BitVec.ofNat 32 chunk.length).toNat = s.accCount.toNat + chunk.length := by
  have missing := window.missing
  unfold State.missing at short
  exact toNat_add_ofNat (by omega)

/-- A read within the budget is counted within it. -/
theorem resting_readCounted (rest : Resting s) (window : Window s) : Resting (readCounted s rx queue k) := by
  refine ⟨rest.neverPersisted, rest.memories, rest.frameLen, ?_⟩
  have budget := window.budget
  change (s.accAttempts + 1).toNat ≤ s.accMax.toNat
  rw [window_attempts window]
  omega

/-- The bytes of a read fit in `FRAME`. -/
theorem resting_readAppended (rest : Resting s) (window : Window s) (short : chunk.length ≤ s.missing) :
    Resting (readAppended s chunk rx queue k) := by
  obtain ⟨⟨mosaicWf, rgbWf, frameWf⟩, mosaicIn, rgbIn, frameIn⟩ := rest.memories
  have fits : s.frameLen.toNat + chunk.length ≤ Config.frameCap := by
    have room := window.room
    unfold State.missing at short
    omega
  exact ⟨rest.neverPersisted,
    ⟨⟨mosaicWf, rgbWf, Memory.writeBlock_wf frameWf _ _⟩, mosaicIn, rgbIn, Memory.writeBlock_within frameIn fits⟩,
    (window_frameLen window short).trans_le fits, (resting_readCounted rx queue k rest window).attempts⟩

/-- A budget that is not spent by this read leaves another. -/
theorem window_budget_left (window : Window s) (left : s.accAttempts + 1 ≠ s.accMax.setWidth 32) :
    (s.accAttempts + 1).toNat < s.accMax.toNat := by
  have counted := window_attempts window
  have budget := window.budget
  have differs : (s.accAttempts + 1).toNat ≠ s.accMax.toNat := fun same => left (BitVec.eq_of_toNat_eq (by
    rw [same, BitVec.toNat_setWidth, Nat.mod_eq_of_lt (by omega)]))
  omega

/-- A read that neither fills the window nor spends the budget leaves a window for the next. -/
theorem window_readAppended (window : Window s) (short : chunk.length ≤ s.missing)
    (missing : s.accCount + BitVec.ofNat 32 chunk.length ≠ s.accExpected)
    (left : s.accAttempts + 1 ≠ s.accMax.setWidth 32) : Window (readAppended s chunk rx queue k) := by
  have count := window_accCount window short
  have length := window_frameLen window short
  have differs : s.accCount.toNat + chunk.length ≠ s.accExpected.toNat := fun same =>
    missing (BitVec.eq_of_toNat_eq (count.trans same))
  have below := window.missing
  have room := window.room
  unfold State.missing at short
  refine ⟨window.linkOpen, ?_, window_budget_left window left, ?_⟩
  · exact count.trans_lt (by simp only [readAppended, readCounted]; omega)
  · simp only [readAppended, readCounted, count, length]
    omega

end

/-! ### A command that goes on -/

/-- What a step that does not end a command leaves of its record (R200, R201). -/
structure SameCommand (s t : State) : Prop where
  busy : t.status.busy = s.status.busy
  curOp : t.curOp = s.curOp
  done : t.status.done = s.status.done
  err : t.status.err = s.status.err
  lastOp : t.status.lastOp = s.status.lastOp
  errInfo0 : t.errInfo0 = s.errInfo0
  errInfo1 : t.errInfo1 = s.errInfo1

section
variable {s t : State}

theorem running_of_sameCommand (running : Running s) (same : SameCommand s t) : Running t := by
  obtain ⟨done, err, info0, info1⟩ := running.record
  refine ⟨?_, ⟨?_, ?_, ?_, ?_⟩, ?_⟩
  · rw [same.curOp]
    exact running.command
  · rw [same.done, done]
  · rw [same.err, err]
  · rw [same.errInfo0, info0]
  · rw [same.errInfo1, info1]
  · rw [same.lastOp, same.curOp, running.lastOp]

/-- An ACCUMULATE that goes on keeps the invariant when it keeps its window. -/
theorem inv_of_accumulate_continues (inv : Inv s) (busy : s.status.busy = true) (op : s.curOp = 0x03)
    (same : SameCommand s t) (rest : Resting t) (opened : t.openedHere = s.openedHere)
    (seq : t.status.seqState = s.status.seqState) (window : t.accStarted = true → Window t) : Inv t where
  neverPersisted := rest.neverPersisted
  memories := rest.memories
  frameLen := rest.frameLen
  attempts := rest.attempts
  openedHere := fun here => by simp [opened, notOpened_of_other inv (by simp [op])] at here
  running := fun _ => running_of_sameCommand (inv.running busy) same
  otherSeq := fun _ _ => seq.trans (inv.otherSeq busy (by simp [op]))
  captureSeq := fun _ capture => by simp [same.curOp, op] at capture
  capture := fun _ capture => by simp [same.curOp, op] at capture
  window := by
    rintro ⟨-, ⟨-, started⟩ | ⟨capture, -⟩⟩
    · exact window started
    · simp [same.curOp, op] at capture

/-- A CAPTURE that goes on keeps the invariant when its next stage finds what it needs. -/
theorem inv_of_capture_continues (inv : Inv s) (busy : s.status.busy = true) (op : s.curOp = 0x06)
    (same : SameCommand s t) (rest : Resting t) (seq : t.status.seqState = seqBefore t.capPhase)
    (opened : t.openedHere = true → t.status.linkOpen = true) (ready : CaptureReady t)
    (window : t.capPhase = .accRead → Window t) : Inv t where
  neverPersisted := rest.neverPersisted
  memories := rest.memories
  frameLen := rest.frameLen
  attempts := rest.attempts
  openedHere := fun here => ⟨same.busy.trans busy, same.curOp.trans op, opened here⟩
  running := fun _ => running_of_sameCommand (inv.running busy) same
  otherSeq := fun _ other => absurd (same.curOp.trans op) other
  captureSeq := fun _ _ => seq
  capture := fun _ _ => ready
  window := by
    rintro ⟨-, ⟨accumulate, -⟩ | ⟨-, phase⟩⟩
    · simp [same.curOp, op] at accumulate
    · exact window phase

end

/-! ### ACCUMULATE (R121-R126) -/

section
variable {s : State} (inv : Inv s) (busy : s.status.busy = true)
include inv busy

theorem inv_accumulateStart (op : s.curOp = 0x03) : Inv s.accumulateStart := by
  have rest := resting_of_inv inv
  have notOpened : s.openedHere = false := notOpened_of_other inv (by simp [op])
  have cleared : Resting s.clearCounters := ⟨rest.neverPersisted, rest.memories, rest.frameLen, Nat.zero_le _⟩
  by_cases isOpen : s.status.linkOpen = true
  case neg =>
    rw [Accumulate.accumulateStart_of_closed (by simpa using isOpen)]
    exact inv_finish rest notOpened ..
  by_cases fits : s.accExpected.toNat + s.frameLen.toNat ≤ Config.frameCap
  case neg =>
    rw [Accumulate.accumulateStart_of_overflow isOpen (by omega)]
    exact inv_finish rest notOpened ..
  rw [Accumulate.accumulateStart_of_fits isOpen fits]
  split_ifs with empty noBudget
  · exact inv_finish cleared notOpened ..
  · exact inv_finish cleared notOpened ..
  · refine inv_of_accumulate_continues inv busy op ⟨rfl, rfl, rfl, rfl, rfl, rfl, rfl⟩ ?_ rfl rfl fun _ => ?_
    · exact ⟨cleared.neverPersisted, cleared.memories, cleared.frameLen, cleared.attempts⟩
    · have nonempty : 0 < s.accExpected.toNat := Nat.pos_of_ne_zero fun zero => empty (BitVec.eq_of_toNat_eq zero)
      have budget : 0 < s.cfgAcc.maxAttempts.toNat :=
        Nat.pos_of_ne_zero fun zero => noBudget (BitVec.eq_of_toNat_eq zero)
      exact ⟨isOpen, nonempty, budget, by change s.frameLen.toNat + (s.accExpected.toNat - 0) ≤ _; omega⟩

theorem inv_accumulateRead (op : s.curOp = 0x03) (started : s.accStarted = true) : Inv s.accumulateRead := by
  have rest := resting_of_inv inv
  have notOpened : s.openedHere = false := notOpened_of_other inv (by simp [op])
  have window : Window s := inv.window ⟨busy, .inl ⟨op, started⟩⟩
  obtain ⟨answer, rx, queue, k, answered, short⟩ := exists_readAnswered s
  cases answer with
  | none =>
    rw [accumulateRead_of_failed answered]
    exact inv_finish (resting_readCounted rx queue k rest window) notOpened ..
  | some chunk =>
    have appended := resting_readAppended rx queue k rest window (short chunk rfl)
    rw [accumulateRead_of_chunk answered]
    split_ifs with full spent
    · exact inv_finish appended notOpened ..
    · exact inv_finish appended notOpened ..
    · exact inv_of_accumulate_continues inv busy op ⟨rfl, rfl, rfl, rfl, rfl, rfl, rfl⟩ appended rfl rfl
        fun _ => window_readAppended rx queue k window (short chunk rfl) full spent

end

/-! ### CAPTURE up to the window (R206-R210) -/

/-- The phase of a running CAPTURE gives its `SEQ_STATE`. -/
theorem seqState_of_phase {s : State} {phase : CapPhase} (inv : Inv s) (busy : s.status.busy = true)
    (op : s.curOp = 0x06) (current : s.capPhase = phase) : s.status.seqState = seqBefore phase := by
  rw [inv.captureSeq busy op, current]

section
variable {s : State} (inv : Inv s) (busy : s.status.busy = true) (op : s.curOp = 0x06)
include inv busy op

theorem inv_captureCheck (phase : s.capPhase = .check) : Inv s.captureCheck := by
  have rest := resting_of_inv inv
  have notOpened := (captureReady_check phase).1 (inv.capture busy op)
  by_cases supported : s.cfgDemosaic.pattern.toNat ≤ 3
  case neg =>
    rw [captureCheck_of_unsupported (by omega)]
    exact inv_failCapture rest ..
  rw [captureCheck_of_supported supported]
  have seq : s.status.seqState = .idle := seqState_of_phase inv busy op phase
  refine inv_of_capture_continues inv busy op ⟨rfl, rfl, rfl, rfl, rfl, rfl, rfl⟩ ?_ seq
    (fun opened => by simp [notOpened] at opened) ?_ nofun
  · exact ⟨rest.neverPersisted, rest.memories, rest.frameLen, rest.attempts⟩
  · exact (captureReady_openLink rfl).2 ⟨notOpened, supported⟩

theorem inv_captureOpen (phase : s.capPhase = .openLink) : Inv s.captureOpen := by
  have rest := resting_of_inv inv
  obtain ⟨notOpened, supported⟩ := (captureReady_openLink phase).1 (inv.capture busy op)
  have seq : s.status.seqState = .idle := seqState_of_phase inv busy op phase
  cases isOpen : s.status.linkOpen with
  | true =>
    rw [captureOpen_of_open isOpen]
    refine inv_of_capture_continues inv busy op ⟨rfl, rfl, rfl, rfl, rfl, rfl, rfl⟩ ?_ seq (fun _ => isOpen) ?_ nofun
    · exact ⟨rest.neverPersisted, rest.memories, rest.frameLen, rest.attempts⟩
    · exact (captureReady_resetLink rfl).2 ⟨isOpen, supported⟩
  | false =>
    obtain ⟨ok, acks, k, acked⟩ := exists_acked s
    rw [captureOpen_of_closed isOpen acked]
    split_ifs
    · refine inv_of_capture_continues inv busy op ⟨rfl, rfl, rfl, rfl, rfl, rfl, rfl⟩ ?_ seq (fun _ => rfl) ?_ nofun
      · exact ⟨rest.neverPersisted, rest.memories, rest.frameLen, rest.attempts⟩
      · exact (captureReady_resetLink rfl).2 ⟨rfl, supported⟩
    · refine inv_failCapture ?_ ..
      exact ⟨rest.neverPersisted, rest.memories, rest.frameLen, rest.attempts⟩

theorem inv_captureReset (phase : s.capPhase = .resetLink) : Inv s.captureReset := by
  have rest := resting_of_inv inv
  obtain ⟨isOpen, supported⟩ := (captureReady_resetLink phase).1 (inv.capture busy op)
  have seq : s.status.seqState = .idle := seqState_of_phase inv busy op phase
  obtain ⟨ok, acks, k, acked⟩ := exists_acked s
  rw [captureReset_of_acked acked]
  split_ifs
  · refine inv_of_capture_continues inv busy op ⟨rfl, rfl, rfl, rfl, rfl, rfl, rfl⟩ ?_ seq (fun _ => isOpen) ?_ nofun
    · exact ⟨rest.neverPersisted, rest.memories, Nat.zero_le _, rest.attempts⟩
    · exact (captureReady_sendRequest rfl).2 ⟨isOpen, supported, rfl⟩
  · exact inv_failCapture (resting_linkWasReset rest ..) ..

theorem inv_captureSend (phase : s.capPhase = .sendRequest) : Inv s.captureSend := by
  obtain ⟨isOpen, supported, empty⟩ := (captureReady_sendRequest phase).1 (inv.capture busy op)
  have sentRest := resting_sendBytes (resting_of_inv inv)
  have same : SameCommand s s.sendBytes.2 := by constructor <;> simp
  have linkOpen : s.sendBytes.2.status.linkOpen = true := by simpa using isOpen
  have pattern : s.sendBytes.2.cfgDemosaic.pattern.toNat ≤ 3 := by simpa using supported
  have frameLen : s.sendBytes.2.frameLen = 0 := by simpa using empty
  generalize sent : s.sendBytes = answered at sentRest same linkOpen pattern frameLen
  obtain ⟨ok, t⟩ := answered
  rw [captureSend_of_sent sent]
  split_ifs
  · refine inv_of_capture_continues inv busy op ?_ ?_ rfl (fun _ => linkOpen) ?_ nofun
    · exact ⟨same.busy, same.curOp, same.done, same.err, same.lastOp, same.errInfo0, same.errInfo1⟩
    · exact ⟨nofun, sentRest.memories, sentRest.frameLen, sentRest.attempts⟩
    · exact (captureReady_accInit rfl).2 ⟨linkOpen, pattern, frameLen⟩
  · exact inv_failCapture sentRest ..

end

/-! ### The window of a CAPTURE (R210, R132) -/

/-- A window that the bytes of two fields declare fits in `FRAME` and in a register. -/
theorem window_of_bytes (width height : Byte) :
    (BitVec.ofNat 32 (3 + width.toNat * height.toNat)).toNat = 3 + width.toNat * height.toNat ∧
      3 + width.toNat * height.toNat ≤ Config.frameCap := by
  have size : width.toNat * height.toNat ≤ 255 * 255 := Nat.mul_le_mul (by omega) (by omega)
  refine ⟨?_, by rw [Config.frameCap]; omega⟩
  rw [BitVec.toNat_ofNat, Nat.mod_eq_of_lt (by omega)]

/-- Either policy opens a window that is not empty and fits, with its header part. -/
theorem policyWindow_spec (s : State) :
    0 < (policyWindow s).1.toNat ∧ (policyWindow s).1.toNat ≤ Config.frameCap ∧
      (s.cfgAcc.lengthPolicy = .configured → (policyWindow s).2 = false) ∧
      ((policyWindow s).2 = true → (policyWindow s).1 = 3) ∧
      (s.cfgAcc.lengthPolicy = .headerFirst → (policyWindow s).2 = true) := by
  cases policy : s.cfgAcc.lengthPolicy with
  | configured =>
    obtain ⟨value, fits⟩ := window_of_bytes s.cfgDim.width s.cfgDim.height
    have nonempty : 0 < 3 + s.cfgDim.width.toNat * s.cfgDim.height.toNat := by omega
    rw [policyWindow_of_configured policy]
    exact ⟨nonempty.trans_eq value.symm, value.trans_le fits, fun _ => rfl, nofun, nofun⟩
  | headerFirst =>
    rw [policyWindow_of_headerFirst policy]
    exact ⟨by decide, by decide, nofun, fun _ => rfl, fun _ => rfl⟩

section
variable {s : State}

/-- A read leaves the header part of the window: once the header is whole, the read writes behind it. -/
theorem headerPart_readAppended {chunk : List Byte} (rx : List RxItem) (queue : List Byte) (k : Nat)
    (header : HeaderPart s) (window : Window s) (same : s.frameLen = s.accCount) (short : chunk.length ≤ s.missing) :
    HeaderPart (readAppended s chunk rx queue k) := by
  refine ⟨header.configured, header.pending, fun policy notPending => ?_⟩
  obtain ⟨whole, declared⟩ := header.extended policy notPending
  have behind (i : Nat) (low : i < 3) : (readAppended s chunk rx queue k).peek .frame i = s.peek .frame i := by
    rw [readAppended_peek, peek_poke_outside]
    rw [same]
    omega
  have count := window_accCount window short
  refine ⟨?_, ?_⟩
  · exact (Nat.le_add_right_of_le whole).trans_eq count.symm
  · rw [declaredWindow, behind 1 (by decide), behind 2 (by decide)]
    exact declared

/-- After the header hook: the window is the declared one once the header is whole, and a full window has no header
still to come. -/
theorem headerHook_ready (header : HeaderPart s) (fits : s.accExpected.toNat ≤ Config.frameCap)
    (within : s.accCount.toNat ≤ s.accExpected.toNat) :
    ∃ pending window, s.headerHook = { s with accHdrPending := pending, accExpected := window } ∧
      HeaderPart { s with accHdrPending := pending, accExpected := window } ∧
      s.accCount.toNat ≤ window.toNat ∧ window.toNat ≤ Config.frameCap ∧ (s.accCount = window → pending = false) := by
  by_cases whole : s.accHdrPending = true ∧ s.accCount = 3
  case pos =>
    obtain ⟨value, declaredFits⟩ := window_of_bytes (s.peek .frame 1) (s.peek .frame 2)
    have three : s.accCount.toNat = 3 := by rw [whole.2]; rfl
    refine ⟨false, BitVec.ofNat 32 (declaredWindow s), by rw [State.headerHook, if_pos whole, declaredWindow],
      ⟨fun _ => rfl, nofun, fun _ _ => ⟨three.ge, value⟩⟩, ?_, value.trans_le declaredFits, fun _ => rfl⟩
    rw [three, declaredWindow, value]
    omega
  case neg =>
    refine ⟨s.accHdrPending, s.accExpected, by rw [State.headerHook, if_neg whole], header, within, fits,
      fun full => ?_⟩
    by_contra pending
    have waiting : s.accHdrPending = true := by simpa using pending
    exact whole ⟨waiting, full.trans (header.pending waiting)⟩

variable (inv : Inv s) (busy : s.status.busy = true) (op : s.curOp = 0x06)
include inv busy op

theorem inv_captureAccInit (phase : s.capPhase = .accInit) : Inv s.captureAccInit := by
  have rest := resting_of_inv inv
  obtain ⟨isOpen, supported, empty⟩ := (captureReady_accInit phase).1 (inv.capture busy op)
  obtain ⟨nonempty, fits, configured, pending, headerFirst⟩ := policyWindow_spec s
  have opened : Resting (windowOpened s) := ⟨nofun, rest.memories, rest.frameLen, Nat.zero_le _⟩
  rw [captureAccInit_eq]
  split_ifs with noBudget
  · exact inv_failCapture opened ..
  · refine inv_of_capture_continues inv busy op ⟨rfl, rfl, rfl, rfl, rfl, rfl, rfl⟩ ?_ rfl (fun _ => isOpen) ?_
      fun _ => ?_
    · exact ⟨opened.neverPersisted, opened.memories, opened.frameLen, opened.attempts⟩
    · refine (captureReady_accRead rfl).2 ⟨isOpen, supported, empty, configured, pending, fun policy notPending => ?_⟩
      exact absurd ((headerFirst policy).symm.trans notPending) nofun
    · have budget : 0 < s.cfgAcc.maxAttempts.toNat :=
        Nat.pos_of_ne_zero fun zero => noBudget (BitVec.eq_of_toNat_eq zero)
      refine ⟨isOpen, nonempty, budget, ?_⟩
      change s.frameLen.toNat + ((policyWindow s).1.toNat - 0) ≤ Config.frameCap
      rw [empty]
      simpa using fits

theorem inv_captureRead (phase : s.capPhase = .accRead) : Inv s.captureRead := by
  have rest := resting_of_inv inv
  have window : Window s := inv.window ⟨busy, .inr ⟨op, phase⟩⟩
  have seq : s.status.seqState = .accumulating := seqState_of_phase inv busy op phase
  obtain ⟨isOpen, supported, same, header⟩ := (captureReady_accRead phase).1 (inv.capture busy op)
  obtain ⟨answer, rx, queue, k, answered, short⟩ := exists_readAnswered s
  cases answer with
  | none =>
    rw [captureRead_of_failed answered]
    exact inv_failCapture (resting_readCounted rx queue k rest window) ..
  | some chunk =>
    have short := short chunk rfl
    have appended := resting_readAppended rx queue k rest window short
    have count := window_accCount window short
    have room : s.accExpected.toNat ≤ Config.frameCap := by
      have room := window.room
      have missing := window.missing
      rw [same] at room
      omega
    have within : s.accCount.toNat + chunk.length ≤ s.accExpected.toNat := by
      have := window.missing
      unfold State.missing at short
      omega
    obtain ⟨pending, expected, hooked, header, enough, fits, full⟩ :=
      headerHook_ready (headerPart_readAppended rx queue k header window same short) room (count.trans_le within)
    have sameLength : s.frameLen + BitVec.ofNat 32 chunk.length = s.accCount + BitVec.ofNat 32 chunk.length := by
      rw [same]
    have hookedRest :
        Resting { readAppended s chunk rx queue k with accHdrPending := pending, accExpected := expected } :=
      ⟨appended.neverPersisted, appended.memories, appended.frameLen, appended.attempts⟩
    rw [captureRead_of_chunk answered, hooked]
    split_ifs with isFull spent
    · refine inv_of_capture_continues inv busy op ⟨rfl, rfl, rfl, rfl, rfl, rfl, rfl⟩ ?_ seq (fun _ => isOpen) ?_ nofun
      · exact ⟨hookedRest.neverPersisted, hookedRest.memories, hookedRest.frameLen, hookedRest.attempts⟩
      · exact (captureReady_parse rfl).2
          ⟨isOpen, supported, sameLength, isFull, fun policy => (header.extended policy (full isFull)).2⟩
    · exact inv_failCapture hookedRest ..
    · refine inv_of_capture_continues inv busy op ⟨rfl, rfl, rfl, rfl, rfl, rfl, rfl⟩ hookedRest
        (inv.captureSeq busy op) (fun _ => isOpen) ?_ fun _ => ?_
      · exact (captureReady_accRead (by exact phase)).2 ⟨isOpen, supported, sameLength, header⟩
      · have differs : (s.accCount + BitVec.ofNat 32 chunk.length).toNat ≠ expected.toNat :=
          fun equal => isFull (BitVec.eq_of_toNat_eq equal)
        change (s.accCount + BitVec.ofNat 32 chunk.length).toNat ≤ expected.toNat at enough
        refine ⟨isOpen, lt_of_le_of_ne enough differs, window_budget_left window spent, ?_⟩
        change (s.frameLen + BitVec.ofNat 32 chunk.length).toNat +
          (expected.toNat - (s.accCount + BitVec.ofNat 32 chunk.length).toNat) ≤ Config.frameCap
        rw [sameLength]
        omega

end

/-! ### The last stages of CAPTURE (R211, R212) -/

section
variable {s : State} (inv : Inv s) (busy : s.status.busy = true) (op : s.curOp = 0x06)
include inv busy op

theorem inv_captureParse (phase : s.capPhase = .parse) : Inv s.captureParse := by
  obtain ⟨isOpen, supported, -⟩ := (captureReady_parse phase).1 (inv.capture busy op)
  have parsed := resting_parseFrame (resting_of_inv inv)
  by_cases short : s.frameLen.toNat < 3
  case pos =>
    rw [parseFrame_of_short short] at parsed
    rw [captureParse_of_malformed (parseFrame_of_short short)]
    exact inv_failCapture parsed ..
  by_cases right : s.frameLen.toNat - 3 = declaredLength s
  case neg =>
    have malformed := parseFrame_of_length_ne (by omega) right
    rw [malformed] at parsed
    rw [captureParse_of_malformed malformed]
    exact inv_failCapture parsed ..
  have copied := parseFrame_of_length_eq (by omega) right
  rw [copied] at parsed
  rw [captureParse_of_parsed copied]
  refine inv_of_capture_continues inv busy op ⟨rfl, rfl, rfl, rfl, rfl, rfl, rfl⟩ ?_ rfl (fun _ => isOpen) ?_ nofun
  · exact ⟨nofun, parsed.memories, parsed.frameLen, parsed.attempts⟩
  · exact (captureReady_demosaic rfl).2 ⟨isOpen, supported, rfl⟩

theorem inv_captureDemosaic (phase : s.capPhase = .demosaic) : Inv s.captureDemosaic := by
  obtain ⟨-, supported, -⟩ := (captureReady_demosaic phase).1 (inv.capture busy op)
  obtain ⟨layout, found⟩ := exists_layout supported
  have written := resting_imageWritten (resting_of_inv inv) layout (hdrDim s)
  rw [captureDemosaic_of_supported found]
  refine inv_finish ?_ rfl ..
  exact ⟨nofun, written.memories, written.frameLen, written.attempts⟩

end

/-! ### The engine's step -/

theorem inv_engineStep {s t : State} (inv : Inv s) (busy : s.status.busy = true) (stage : EngineStep s t) : Inv t := by
  have rest := resting_of_inv inv
  have notOpened {op : Byte} (current : s.curOp = op) (other : op ≠ 0x06) : s.openedHere = false :=
    notOpened_of_other inv (by rwa [current])
  cases stage with
  | demosaic op => exact inv_demosaicStage rest (notOpened op (by decide))
  | parse op => exact inv_parseStage rest (notOpened op (by decide))
  | accumulateStart op => exact inv_accumulateStart inv busy op
  | accumulateRead op started => exact inv_accumulateRead inv busy op started
  | sendRequest op => exact inv_sendRequestStage rest (notOpened op (by decide))
  | linkReset op => exact inv_linkResetStage rest (notOpened op (by decide))
  | captureCheck op phase => exact inv_captureCheck inv busy op phase
  | captureOpen op phase => exact inv_captureOpen inv busy op phase
  | captureReset op phase => exact inv_captureReset inv busy op phase
  | captureSend op phase => exact inv_captureSend inv busy op phase
  | captureAccInit op phase => exact inv_captureAccInit inv busy op phase
  | captureRead op phase => exact inv_captureRead inv busy op phase
  | captureParse op phase => exact inv_captureParse inv busy op phase
  | captureDemosaic op phase => exact inv_captureDemosaic inv busy op phase
  | linkOpen op => exact inv_linkOpenStage rest (notOpened op (by decide))
  | linkClose op => exact inv_linkCloseStage rest (notOpened op (by decide))

/-! ### Packets -/

/-- The command that an issued word names. -/
theorem commandOfOp_of_decodeCommand {v : Word} {i : Instr} (named : decodeCommand v = some i) :
    commandOfOp (v.extractLsb' 0 8) = some i := by
  unfold decodeCommand at named
  exact (Option.ite_none_right_eq_some.1 named).2

theorem opcode_of_other {op : Byte} {i : Instr} (named : commandOfOp op = some i) (notAbort : i ≠ .abort)
    (notNop : i ≠ .nop) (notCapture : i ≠ .capture) : (1 ≤ op.toNat ∧ op.toNat ≤ 8) ∧ op ≠ 0x06 := by
  have opcodes := commandOfOp_spec named
  simp only [notAbort, notNop, notCapture, and_false, false_or, or_false] at opcodes
  rcases opcodes with ⟨rfl, -⟩ | ⟨rfl, -⟩ | ⟨rfl, -⟩ | ⟨rfl, -⟩ | ⟨rfl, -⟩ | ⟨rfl, -⟩ | ⟨rfl, -⟩ <;> decide

section
variable {s : State} (inv : Inv s)
include inv

theorem inv_abortRunning : Inv s.abortRunning := by
  have rest := resting_of_inv inv
  unfold State.abortRunning
  dsimp only
  split_ifs with op
  · exact inv_failCapture rest ..
  · exact inv_finish rest (notOpened_of_other inv op) ..

/-- The bookkeeping of an issue sets `SEQ_STATE` to IDLE. -/
theorem resting_bookkeep (v : Word) : Resting (s.bookkeep v) := by
  have rest := resting_of_inv inv
  exact ⟨nofun, rest.memories, rest.frameLen, rest.attempts⟩

/-- An accepted command starts with a clear record, no CAPTURE holding the link, and no read to come. -/
theorem inv_accept (idle : s.status.busy = false) {v : Word}
    (command : 1 ≤ (v.extractLsb' 0 8).toNat ∧ (v.extractLsb' 0 8).toNat ≤ 8) (other : v.extractLsb' 0 8 ≠ 0x06) :
    Inv ((s.bookkeep v).accept v) where
  neverPersisted := nofun
  memories := inv.memories
  frameLen := inv.frameLen
  attempts := inv.attempts
  openedHere := fun opened => by simp [notOpened_of_idle inv idle] at opened
  running := fun _ => ⟨command, ⟨rfl, rfl, rfl, rfl⟩, rfl⟩
  otherSeq := fun _ _ => rfl
  captureSeq := fun _ capture => absurd capture other
  capture := fun _ capture => absurd capture other
  window := by
    rintro ⟨-, ⟨-, started⟩ | ⟨capture, -⟩⟩
    · simp at started
    · exact absurd capture other

/-- A CAPTURE starts at CHECK with the link not opened on its account. -/
theorem inv_accept_capture {v : Word} (capture : v.extractLsb' 0 8 = 0x06) :
    Inv ((s.bookkeep v).accept v).startCapture where
  neverPersisted := nofun
  memories := inv.memories
  frameLen := inv.frameLen
  attempts := inv.attempts
  openedHere := nofun
  running := fun _ => ⟨by simp [capture], ⟨rfl, rfl, rfl, rfl⟩, rfl⟩
  otherSeq := fun _ _ => rfl
  captureSeq := fun _ _ => rfl
  capture := fun _ _ => (captureReady_check rfl).2 rfl
  window := by
    rintro ⟨-, ⟨-, started⟩ | ⟨-, phase⟩⟩
    · simp at started
    · simp at phase

theorem inv_issue (idle : s.status.busy = false) (v : Word) : Inv (s.issue v) := by
  have rest := resting_bookkeep inv v
  have notOpened := notOpened_of_idle inv idle
  rcases s.issue_spec v with ⟨-, issued⟩ | ⟨-, issued⟩ | ⟨-, issued⟩ | ⟨named, issued⟩ |
    ⟨i, named, notAbort, notNop, notCapture, issued⟩ <;> rw [issued]
  · exact inv_finish rest notOpened ..
  · exact inv
  · exact inv_finish rest notOpened ..
  · have opcodes := commandOfOp_spec (commandOfOp_of_decodeCommand named)
    exact inv_accept_capture inv (by simpa using opcodes)
  · obtain ⟨command, other⟩ := opcode_of_other (commandOfOp_of_decodeCommand named) notAbort notNop notCapture
    exact inv_accept inv idle command other

/-- The fields that the host writes are no part of the invariant while idle. -/
theorem inv_setRegister (idle : s.status.busy = false) (index : BitVec 4) (v : Word) :
    Inv (s.setRegister index v) := by
  have notOpened := notOpened_of_idle inv idle
  rw [State.setRegister_spec]
  exact inv_of_idle ⟨inv.neverPersisted, inv.memories, inv.frameLen, inv.attempts⟩ idle notOpened

/-- A byte in range is written inside its space. -/
theorem resting_poke {space : Space} {addr : Nat} (inRange : addr < spaceSize space) (v : Byte) :
    Resting (s.poke space addr [v]) := by
  obtain ⟨⟨mosaicWf, rgbWf, frameWf⟩, mosaicIn, rgbIn, frameIn⟩ := inv.memories
  have fits : addr + [v].length ≤ spaceSize space := inRange
  cases space with
  | mosaic =>
    exact ⟨inv.neverPersisted, ⟨⟨Memory.writeBlock_wf mosaicWf _ _, rgbWf, frameWf⟩,
      Memory.writeBlock_within mosaicIn fits, rgbIn, frameIn⟩, inv.frameLen, inv.attempts⟩
  | rgb =>
    exact ⟨inv.neverPersisted, ⟨⟨mosaicWf, Memory.writeBlock_wf rgbWf _ _, frameWf⟩, mosaicIn,
      Memory.writeBlock_within rgbIn fits, frameIn⟩, inv.frameLen, inv.attempts⟩
  | frame =>
    exact ⟨inv.neverPersisted, ⟨⟨mosaicWf, rgbWf, Memory.writeBlock_wf frameWf _ _⟩, mosaicIn, rgbIn,
      Memory.writeBlock_within frameIn fits⟩, inv.frameLen, inv.attempts⟩

theorem inv_packetStep {t : State} (packet : PacketStep s t) : Inv t := by
  cases running : s.status.busy with
  | true =>
    rcases packetStep_busy_spec running packet with rfl | rfl | ⟨reply, encoded, queue, k, rfl⟩
    · exact inv_dropWrite inv
    · exact inv_abortRunning inv
    · exact inv_with_ports inv ..
  | false =>
    rcases packetStep_idle_spec running packet with ⟨v, rfl⟩ | ⟨index, v, rfl⟩ | ⟨space, addr, v, inRange, rfl⟩ |
      ⟨reply, encoded, queue, k, rfl⟩
    · exact inv_issue inv running v
    · exact inv_setRegister inv running index v
    · refine inv_of_idle (resting_poke inv inRange v) ?_ ?_
      · rw [State.poke_status, running]
      · rw [State.poke_openedHere, notOpened_of_idle inv running]
    · exact inv_with_ports inv ..

/-- A reset leaves the memories and clears the rest. -/
theorem inv_platformReset : Inv s.platformReset :=
  inv_of_idle ⟨nofun, inv.memories, Nat.zero_le _, Nat.zero_le _⟩ rfl rfl

end

/-! ### The statements -/

/-- Settles O10: no memory byte is defined, and nothing runs. -/
theorem resetMeetsTheInvariant : Obligations.ResetMeetsTheInvariant :=
  inv_of_idle ⟨nofun, ⟨Memory.reset_wf, nofun, nofun, nofun⟩, Nat.zero_le _, Nat.zero_le _⟩ rfl rfl

/-- Settles O11: the engine's step of each stage, each packet and a reset keep the invariant. -/
theorem everyStepKeepsTheInvariant : Obligations.EveryStepKeepsTheInvariant := by
  intro s t inv next
  cases stepTo_of_step next with
  | idle rest turn idle => exact inv_with_event inv rest s.turn
  | engine rest turn busy stage => exact inv_engineStep (inv_with_event inv rest .engine) busy stage
  | reset rest first => exact inv_platformReset (inv_with_event inv rest s.turn)
  | packet p rest first packet => exact inv_packetStep (inv_with_event inv rest (packetAgent p)) packet

/-- The running command of a state that meets the invariant has an engine step. -/
theorem exists_engineInstr {s : State} (inv : Inv s) (busy : s.status.busy = true) :
    ∃ i, engineInstr s.curOp = some i := by
  obtain ⟨low, high⟩ := (inv.running busy).command
  refine Option.ne_none_iff_exists'.1 fun none => ?_
  rcases (engineInstr_eq_none_iff s.curOp).1 none with zero | nine
  · simp [zero] at low
  · omega

/-- Settles O12: the one fault is that of a busy state without a stage. -/
theorem noStepFaults : Obligations.NoStepFaults := by
  intro s f inv faults
  rcases step_spec s with ⟨rest, turn, ⟨-, stepped⟩ | ⟨busy, i, -, stepped⟩ | ⟨busy, none, -⟩⟩ |
    ⟨rest, first, stepped⟩ | ⟨p, rest, first, stepped⟩
  case inl.inl => simp [stepped] at faults
  case inl.inr.inl =>
    obtain ⟨t, answered⟩ := exec_answers i { s with schedule := rest, turn := .engine }
    simp [stepped, answered] at faults
  case inl.inr.inr =>
    obtain ⟨i, named⟩ := exists_engineInstr inv busy
    simp [none] at named
  case inr.inl => simp [stepped] at faults
  case inr.inr =>
    rw [stepped] at faults
    cases decoded : decode p with
    | ok i =>
      obtain ⟨t, answered⟩ := exec_answers i { s with schedule := rest, turn := packetAgent p }
      rw [runPacket_of_decode decoded] at faults
      simp [answered] at faults
    | error e =>
      rw [runPacket_of_error decoded] at faults
      cases e <;> simp [rejected] at faults

end Sys2Proof.Proofs.Invariant
end

section
/-! What a step issues on the link port: only what the link can take (R101), and at the end of a CAPTURE that opened the
link, `LinkClose` last (R209, R262). -/

namespace Sys2Proof.Proofs.LinkTraffic

open Sys2Proof Sys2Proof.Machine Sys2Proof.Safety Sys2Proof.Proofs.Steps Sys2Proof.Proofs.Reads Sys2Proof.Proofs.Image
  Sys2Proof.Proofs.Parse Sys2Proof.Proofs.CaptureControl Sys2Proof.Proofs.CaptureStages Sys2Proof.Proofs.LinkRequest
  Sys2Proof.Proofs.Frames Sys2Proof.Proofs.Invariant

/-! ### Operations that fit the link's state -/

/-- What was issued between two states needed an open link exactly when it was open at the start. -/
def IssuesLegally (s t : State) : Prop :=
  ∃ ops, t.linkLog = s.linkLog ++ ops ∧ ∀ op ∈ ops, s.status.linkOpen = needsOpenLink op

section
variable {s t u : State}

theorem issuesLegally_of_eq (same : t.linkLog = s.linkLog) : IssuesLegally s t :=
  ⟨[], by rw [same, List.append_nil], nofun⟩

theorem issuesLegally_one {op : LinkOp} (issued : t.linkLog = s.linkLog ++ [op])
    (legal : s.status.linkOpen = needsOpenLink op) : IssuesLegally s t :=
  ⟨[op], issued, fun _ mem => by rwa [List.mem_singleton.1 mem]⟩

/-- Further legal operations may follow. -/
theorem IssuesLegally.append {ops : List LinkOp} (issued : IssuesLegally s t) (more : u.linkLog = t.linkLog ++ ops)
    (legal : ∀ op ∈ ops, s.status.linkOpen = needsOpenLink op) : IssuesLegally s u := by
  obtain ⟨before, log, legalBefore⟩ := issued
  refine ⟨before ++ ops, by rw [more, log, List.append_assoc], fun op mem => ?_⟩
  rcases List.mem_append.1 mem with mem | mem
  · exact legalBefore op mem
  · exact legal op mem

/-- The failure of a CAPTURE closes a link that it opened, which is open. -/
theorem issuesLegally_failCapture (issued : IssuesLegally s u) (opened : u.openedHere = true → s.status.linkOpen = true)
    (code : ErrCode) (info0 info1 : Word) : IssuesLegally s (u.failCapture code info0 info1) := by
  rw [failCapture_eq]
  cases here : u.openedHere with
  | false => exact issued.append (List.append_nil _).symm nofun
  | true => exact issued.append rfl fun op mem => by rw [List.mem_singleton.1 mem, opened here]; rfl

end

/-! ### The stages -/

theorem demosaicStage_linkLog (s : State) : s.demosaicStage.linkLog = s.linkLog := by
  cases found : layoutOfPattern s.cfgDemosaic.pattern with
  | none => rw [Demosaic.demosaicStage_of_unsupported found, State.finish_linkLog]
  | some layout =>
    rw [demosaicStage_of_supported found]
    rfl

theorem parseFrame_linkLog (s : State) : s.parseFrame.2.linkLog = s.linkLog := by rw [parseFrame_eq]

theorem parseStage_linkLog (s : State) : s.parseStage.linkLog = s.linkLog := by
  have parsed := parseFrame_linkLog s
  unfold State.parseStage
  split <;> rename_i answered <;> rw [answered] at parsed <;> exact parsed

theorem accumulateStart_linkLog (s : State) : s.accumulateStart.linkLog = s.linkLog := by
  unfold State.accumulateStart
  dsimp only
  split_ifs <;> rfl

/-- Sending the request issues the write, and the flush unless the write failed. -/
theorem sendBytes_issuesLegally {s : State} (isOpen : s.status.linkOpen = true) : IssuesLegally s s.sendBytes.2 := by
  have written : IssuesLegally s
      ((s.runEncoder (s8 s.req.opcode) (s8 s.req.param)).linkAck
        (.linkWrite (s.runEncoder (s8 s.req.opcode) (s8 s.req.param)).encoded)).2 :=
    issuesLegally_one (State.linkAck_linkLog ..) isOpen
  rcases s.sendBytes_spec with ⟨-, sent⟩ | ⟨-, sent⟩ <;> rw [sent]
  · exact written
  · exact written.append (State.linkAck_linkLog ..) fun op mem => by rw [List.mem_singleton.1 mem, isOpen]; rfl

/-- What sending the bytes answers decides the stage SEND. -/
theorem captureSend_eq (s : State) :
    s.captureSend =
      if s.sendBytes.1 then (s.sendBytes.2.setSeq .commandSent).setPhase .accInit
      else s.sendBytes.2.failCapture .deviceUnavailable 3 s.sendBytes.2.frameLen :=
  captureSend_of_sent (ok := s.sendBytes.1) rfl

theorem linkWasReset_linkLog (s : State) (ok : Bool) (acks : List Bool) (k : Nat) :
    (linkWasReset s ok acks k).linkLog = s.linkLog ++ [.linkReset] := by
  cases ok <;> rfl

theorem engineStep_issuesLegally {s t : State} (inv : Inv s) (busy : s.status.busy = true) (stage : EngineStep s t) :
    IssuesLegally s t := by
  have openedHere (here : s.openedHere = true) : s.status.linkOpen = true := (inv.openedHere here).2.2
  cases stage with
  | demosaic => exact issuesLegally_of_eq (demosaicStage_linkLog s)
  | parse => exact issuesLegally_of_eq (parseStage_linkLog s)
  | accumulateStart => exact issuesLegally_of_eq (accumulateStart_linkLog s)
  | accumulateRead op started =>
    have isOpen := (inv.window ⟨busy, .inl ⟨op, started⟩⟩).linkOpen
    obtain ⟨answer, rx, queue, k, answered, -⟩ := exists_readAnswered s
    cases answer with
    | none =>
      rw [accumulateRead_of_failed answered]
      exact issuesLegally_one rfl isOpen
    | some chunk =>
      rw [accumulateRead_of_chunk answered]
      split_ifs <;> exact issuesLegally_one rfl isOpen
  | sendRequest =>
    cases isOpen : s.status.linkOpen with
    | false =>
      rw [LinkRequest.sendRequestStage_of_closed isOpen]
      exact issuesLegally_of_eq rfl
    | true =>
      have sent := sendBytes_issuesLegally isOpen
      rw [LinkRequest.sendRequestStage_of_sent isOpen (t := s.sendBytes.2) (ok := s.sendBytes.1) rfl]
      exact sent
  | linkReset =>
    cases isOpen : s.status.linkOpen with
    | false =>
      rw [linkResetStage_of_closed isOpen]
      exact issuesLegally_of_eq rfl
    | true =>
      obtain ⟨ok, acks, k, acked⟩ := exists_acked s
      rw [linkResetStage_of_open isOpen acked]
      split_ifs <;> exact issuesLegally_one (linkWasReset_linkLog ..) isOpen
  | linkOpen =>
    cases isOpen : s.status.linkOpen with
    | true =>
      rw [linkOpenStage_of_open isOpen]
      exact issuesLegally_of_eq rfl
    | false =>
      obtain ⟨ok, acks, k, acked⟩ := exists_acked s
      rw [linkOpenStage_of_closed isOpen acked]
      split_ifs <;> exact issuesLegally_one rfl isOpen
  | linkClose =>
    cases isOpen : s.status.linkOpen with
    | true =>
      rw [linkCloseStage_of_open isOpen]
      exact issuesLegally_one rfl isOpen
    | false =>
      rw [linkCloseStage_of_closed isOpen]
      exact issuesLegally_of_eq rfl
  | captureCheck =>
    unfold State.captureCheck
    split
    · exact issuesLegally_failCapture (issuesLegally_of_eq rfl) openedHere ..
    · exact issuesLegally_of_eq rfl
  | captureOpen =>
    cases isOpen : s.status.linkOpen with
    | true =>
      rw [captureOpen_of_open isOpen]
      exact issuesLegally_of_eq rfl
    | false =>
      obtain ⟨ok, acks, k, acked⟩ := exists_acked s
      rw [captureOpen_of_closed isOpen acked]
      split_ifs
      · exact issuesLegally_one rfl isOpen
      · exact issuesLegally_failCapture (issuesLegally_one (op := .linkOpen) rfl isOpen) (by exact openedHere) ..
  | captureReset op phase =>
    obtain ⟨isOpen, -⟩ := (captureReady_resetLink phase).1 (inv.capture busy op)
    obtain ⟨ok, acks, k, acked⟩ := exists_acked s
    rw [captureReset_of_acked acked]
    split_ifs
    · exact issuesLegally_one (linkWasReset_linkLog ..) isOpen
    · exact issuesLegally_failCapture (issuesLegally_one (linkWasReset_linkLog ..) isOpen) (fun _ => isOpen) ..
  | captureSend op phase =>
    obtain ⟨isOpen, -⟩ := (captureReady_sendRequest phase).1 (inv.capture busy op)
    have sent := sendBytes_issuesLegally isOpen
    rw [captureSend_eq]
    split_ifs
    · exact sent
    · exact issuesLegally_failCapture sent (fun _ => isOpen) ..
  | captureAccInit =>
    rw [captureAccInit_eq]
    split_ifs
    · exact issuesLegally_failCapture (u := windowOpened s) (issuesLegally_of_eq rfl) openedHere ..
    · exact issuesLegally_of_eq rfl
  | captureRead op phase =>
    have isOpen := (inv.window ⟨busy, .inr ⟨op, phase⟩⟩).linkOpen
    obtain ⟨answer, rx, queue, k, answered, -⟩ := exists_readAnswered s
    cases answer with
    | none =>
      rw [captureRead_of_failed answered]
      exact issuesLegally_failCapture (issuesLegally_one (op := .linkRead s.missing) rfl isOpen)
        (by exact openedHere) ..
    | some chunk =>
      have issued : IssuesLegally s (readAppended s chunk rx queue k).headerHook := by
        rw [State.headerHook_spec]
        exact issuesLegally_one rfl isOpen
      rw [captureRead_of_chunk answered]
      split_ifs
      · exact issued
      · exact issuesLegally_failCapture issued (fun _ => isOpen) ..
      · exact issued
  | captureParse =>
    have parsed : IssuesLegally s s.parseFrame.2 := issuesLegally_of_eq (parseFrame_linkLog s)
    have opened := parseFrame_openedHere s
    unfold State.captureParse
    split <;> rename_i answered <;> rw [answered] at parsed opened
    · exact issuesLegally_failCapture parsed (fun here => openedHere (opened.symm.trans here)) ..
    · exact parsed
  | captureDemosaic op phase =>
    obtain ⟨isOpen, supported, -⟩ := (captureReady_demosaic phase).1 (inv.capture busy op)
    obtain ⟨layout, found⟩ := exists_layout supported
    rw [captureDemosaic_of_supported found, captured]
    cases here : s.openedHere with
    | false => exact issuesLegally_of_eq rfl
    | true => exact issuesLegally_one rfl isOpen

/-! ### Packets and reset -/

theorem abortRunning_issuesLegally {s : State} (inv : Inv s) : IssuesLegally s s.abortRunning := by
  unfold State.abortRunning
  dsimp only
  split_ifs
  · exact issuesLegally_failCapture (issuesLegally_of_eq rfl) (fun here => (inv.openedHere here).2.2) ..
  · exact issuesLegally_of_eq rfl

theorem issue_linkLog (s : State) (v : Word) : (s.issue v).linkLog = s.linkLog := by
  rcases s.issue_spec v with ⟨-, issued⟩ | ⟨-, issued⟩ | ⟨-, issued⟩ | ⟨-, issued⟩ | ⟨i, -, -, -, -, issued⟩ <;>
    rw [issued] <;> rfl

/-- Of the packets only ABORT can issue an operation. -/
theorem packetStep_issuesLegally {s t : State} (inv : Inv s) (packet : PacketStep s t) : IssuesLegally s t := by
  cases running : s.status.busy with
  | true =>
    rcases packetStep_busy_spec running packet with rfl | rfl | ⟨reply, encoded, queue, k, rfl⟩
    · exact issuesLegally_of_eq rfl
    · exact abortRunning_issuesLegally inv
    · exact issuesLegally_of_eq rfl
  | false =>
    rcases packetStep_idle_spec running packet with ⟨v, rfl⟩ | ⟨index, v, rfl⟩ | ⟨space, addr, v, -, rfl⟩ |
      ⟨reply, encoded, queue, k, rfl⟩
    · exact issuesLegally_of_eq (issue_linkLog s v)
    · exact issuesLegally_of_eq (by rw [State.setRegister_spec])
    · exact issuesLegally_of_eq (by rw [State.poke_linkLog])
    · exact issuesLegally_of_eq rfl

theorem platformReset_issuesLegally (s : State) : IssuesLegally s s.platformReset := by
  cases isOpen : s.status.linkOpen with
  | false => exact issuesLegally_of_eq (by simp [isOpen])
  | true => exact issuesLegally_one (op := .linkClose) (by simp [isOpen]) isOpen

/-- Settles O15: by what the stages issue, and the close of an open link by ABORT and by a reset. -/
theorem linkOperationsNeedAnOpenLink : Obligations.LinkOperationsNeedAnOpenLink := by
  intro s t inv next
  cases stepTo_of_step next with
  | idle rest turn idle => exact issuesLegally_of_eq rfl
  | engine rest turn busy stage =>
    have issued := engineStep_issuesLegally (inv_with_event inv rest .engine) busy stage
    exact issued
  | reset rest first =>
    have issued := platformReset_issuesLegally { s with schedule := rest }
    exact issued
  | packet p rest first packet =>
    have issued := packetStep_issuesLegally (inv_with_event inv rest (packetAgent p)) packet
    exact issued

/-! ### The end of a CAPTURE that opened the link (R209) -/

/-- The link is closed, and that was the last operation. -/
def LinkClosed (t : State) : Prop := t.status.linkOpen = false ∧ t.linkLog.getLast? = some .linkClose

theorem linkClosed_failCapture {u : State} (opened : u.openedHere = true) (code : ErrCode) (info0 info1 : Word) :
    LinkClosed (u.failCapture code info0 info1) := by
  rw [failCapture_eq, opened]
  exact ⟨rfl, List.getLast?_concat ..⟩

/-- A stage of a CAPTURE that opened the link either leaves it running or closes the link. -/
theorem captureStep_busy_or_closed {s t : State} (inv : Inv s) (busy : s.status.busy = true) (op : s.curOp = 0x06)
    (opened : s.openedHere = true) (stage : EngineStep s t) : t.status.busy = true ∨ LinkClosed t := by
  cases stage with
  | captureCheck =>
    unfold State.captureCheck
    split
    · exact .inr (linkClosed_failCapture opened ..)
    · exact .inl busy
  | captureOpen =>
    cases isOpen : s.status.linkOpen with
    | true =>
      rw [captureOpen_of_open isOpen]
      exact .inl busy
    | false =>
      obtain ⟨ok, acks, k, acked⟩ := exists_acked s
      rw [captureOpen_of_closed isOpen acked]
      split_ifs
      · exact .inl busy
      · exact .inr (linkClosed_failCapture (by exact opened) ..)
  | captureReset =>
    obtain ⟨ok, acks, k, acked⟩ := exists_acked s
    rw [captureReset_of_acked acked]
    split_ifs
    · exact .inl busy
    · exact .inr (linkClosed_failCapture (by rwa [linkWasReset_openedHere]) ..)
  | captureSend =>
    rw [captureSend_eq]
    split_ifs
    · exact .inl (by rwa [State.setPhase_status, State.setSeq_status, State.sendBytes_status])
    · exact .inr (linkClosed_failCapture (by rwa [State.sendBytes_openedHere]) ..)
  | captureAccInit =>
    rw [captureAccInit_eq]
    split_ifs
    · exact .inr (linkClosed_failCapture (by exact opened) ..)
    · exact .inl busy
  | captureRead =>
    obtain ⟨answer, rx, queue, k, answered, -⟩ := exists_readAnswered s
    cases answer with
    | none =>
      rw [captureRead_of_failed answered]
      exact .inr (linkClosed_failCapture (by exact opened) ..)
    | some chunk =>
      rw [captureRead_of_chunk answered, State.headerHook_spec]
      split_ifs
      · exact .inl busy
      · exact .inr (linkClosed_failCapture (by exact opened) ..)
      · exact .inl busy
  | captureParse =>
    have here := parseFrame_openedHere s
    have running : s.parseFrame.2.status.busy = s.status.busy := by rw [parseFrame_eq]
    unfold State.captureParse
    split <;> rename_i answered <;> rw [answered] at here running
    · exact .inr (linkClosed_failCapture (here.trans opened) ..)
    · exact .inl (running.trans busy)
  | captureDemosaic _ phase =>
    obtain ⟨-, supported, -⟩ := (captureReady_demosaic phase).1 (inv.capture busy op)
    obtain ⟨layout, found⟩ := exists_layout supported
    rw [captureDemosaic_of_supported found, captured, opened]
    exact .inr ⟨rfl, List.getLast?_concat ..⟩
  | demosaic other | parse other | accumulateStart other | accumulateRead other | sendRequest other | linkReset other
  | linkOpen other | linkClose other => simp [op] at other

/-- Settles O32: the last stage or a failure, an ABORT, or a reset. -/
theorem captureClosesTheLinkItOpened : Obligations.CaptureClosesTheLinkItOpened := by
  intro s t inv opened next ended
  obtain ⟨busy, op, isOpen⟩ := inv.openedHere opened
  cases stepTo_of_step next with
  | idle rest turn idle => simp [busy] at idle
  | engine rest turn _ stage =>
    rcases captureStep_busy_or_closed (inv_with_event inv rest .engine) busy op opened stage with running | closed
    · simp [ended] at running
    · exact closed
  | reset rest first =>
    refine ⟨rfl, ?_⟩
    simp [isOpen]
  | packet p rest first packet =>
    rcases packetStep_busy_spec (by exact busy) packet with rfl | rfl | ⟨reply, encoded, queue, k, rfl⟩
    · simp [busy] at ended
    · rw [abortRunning_of_capture (by exact op)]
      exact linkClosed_failCapture (by exact opened) ..
    · simp [busy] at ended

end Sys2Proof.Proofs.LinkTraffic
end

section
/-! Runs of the machine with nothing scheduled: every command ends (R128, R271), a silent link and a link that fills the
window (R129), and the PARSE stage of a CAPTURE under HEADER_FIRST (R211). -/

namespace Sys2Proof.Proofs.Runs

open Sys2Proof Sys2Proof.Machine Sys2Proof.Safety Sys2Proof.Proofs.Steps Sys2Proof.Proofs.Reads Sys2Proof.Proofs.Image
  Sys2Proof.Proofs.Parse Sys2Proof.Proofs.CaptureControl Sys2Proof.Proofs.CaptureStages Sys2Proof.Proofs.LinkRequest
  Sys2Proof.Proofs.Frames Sys2Proof.Proofs.Invariant Sys2Proof.Proofs.LinkTraffic

/-! ### Steps with nothing scheduled -/

theorem run_succ {s t : State} (next : step s = .next t) (k : Nat) : core.run (k + 1) s = core.run k t := by
  have stepped : core.step s = .next t := next
  simp only [Host.Core.run, stepped]

theorem run_one {s t : State} (next : step s = .next t) : core.run 1 s = .next t := run_succ next 0

section
variable {s : State} (empty : s.schedule = []) (busy : s.status.busy = true)
include empty busy

/-- With nothing scheduled the engine takes the stage of the running command. -/
theorem step_of_empty {i : Instr} (named : engineInstr s.curOp = some i) :
    step s = exec i { s with turn := .engine } := by
  rw [step_of_engineTurn_busy (.inl ⟨empty, rfl⟩) busy named, ← empty]

theorem exists_engineStep (inv : Inv s) : ∃ t, step s = .next t ∧ EngineStep { s with turn := .engine } t := by
  obtain ⟨i, named⟩ := exists_engineInstr inv busy
  rw [step_of_empty empty busy named]
  exact exec_of_engineInstr (s := { s with turn := .engine }) rfl named

end

/-! ### PARSE under HEADER_FIRST (R211) -/

/-- Settles O60: the window that the invariant gives is the length that the header declares. -/
theorem headerFirstCaptureIsNeverMalformed : Obligations.HeaderFirstCaptureIsNeverMalformed := by
  intro s inv busy op phase policy empty
  obtain ⟨-, -, sameLength, full, declared⟩ := (captureReady_parse phase).1 (inv.capture busy op)
  have window : s.frameLen.toNat = 3 + declaredLength s := by
    rw [sameLength, full, declared policy]
    rfl
  have parsed : State.parseFrame { s with turn := .engine } = (none, payloadCopied { s with turn := .engine }) :=
    parseFrame_of_length_eq (s := { s with turn := .engine }) (by change 3 ≤ s.frameLen.toNat; omega)
      (by change s.frameLen.toNat - 3 = declaredLength s; omega)
  have named : engineInstr s.curOp = some .capture := by
    rw [op]
    rfl
  rw [step_of_empty empty busy named, exec_capture, State.asCommand_engine rfl, captureStage_of_parse (by exact phase),
    captureParse_of_parsed parsed]
  exact ⟨_, rfl, busy, rfl, rfl, rfl⟩

/-! ### Every command ends (R271) -/

/-- The engine steps a CAPTURE has left at most, by its next stage. -/
def captureStagesLeft (s : State) : CapPhase → Nat
  | .check => 7 + s.cfgAcc.maxAttempts.toNat
  | .openLink => 6 + s.cfgAcc.maxAttempts.toNat
  | .resetLink => 5 + s.cfgAcc.maxAttempts.toNat
  | .sendRequest => 4 + s.cfgAcc.maxAttempts.toNat
  | .accInit => 3 + s.cfgAcc.maxAttempts.toNat
  | .accRead => 2 + (s.accMax.toNat - s.accAttempts.toNat)
  | .parse => 2
  | .demosaic => 1

/-- The engine steps a running command has left at most. -/
def stagesLeft (s : State) : Nat :=
  if s.curOp = 0x03 then
    if s.accStarted then s.accMax.toNat - s.accAttempts.toNat else 1 + s.cfgAcc.maxAttempts.toNat
  else if s.curOp = 0x06 then captureStagesLeft s s.capPhase
  else 1

section
variable {s : State}

theorem stagesLeft_of_start (op : s.curOp = 0x03) (fresh : s.accStarted = false) :
    stagesLeft s = 1 + s.cfgAcc.maxAttempts.toNat := by
  simp [stagesLeft, op, fresh]

theorem stagesLeft_of_reading (op : s.curOp = 0x03) (started : s.accStarted = true) :
    stagesLeft s = s.accMax.toNat - s.accAttempts.toNat := by
  simp [stagesLeft, op, started]

theorem stagesLeft_of_capture {phase : CapPhase} (op : s.curOp = 0x06) (current : s.capPhase = phase) :
    stagesLeft s = captureStagesLeft s phase := by
  simp [stagesLeft, op, current]

theorem stagesLeft_of_other (notAccumulate : s.curOp ≠ 0x03) (notCapture : s.curOp ≠ 0x06) : stagesLeft s = 1 := by
  rw [stagesLeft, if_neg notAccumulate, if_neg notCapture]

/-- A running command has a step to take. -/
theorem stagesLeft_pos (inv : Inv s) (busy : s.status.busy = true) : 0 < stagesLeft s := by
  by_cases accumulate : s.curOp = 0x03
  · cases started : s.accStarted with
    | false =>
      rw [stagesLeft_of_start accumulate started]
      omega
    | true =>
      have budget := (inv.window ⟨busy, .inl ⟨accumulate, started⟩⟩).budget
      rw [stagesLeft_of_reading accumulate started]
      omega
  by_cases capture : s.curOp = 0x06
  · rw [stagesLeft_of_capture capture rfl]
    cases s.capPhase <;> simp only [captureStagesLeft] <;> omega
  · rw [stagesLeft_of_other accumulate capture]
    decide

end

/-- A step that ends the command or leaves it fewer steps. -/
def Progress (s t : State) : Prop := t.status.busy = false ∨ stagesLeft t < stagesLeft s

section
variable {s : State}

theorem demosaicStage_ends (s : State) : s.demosaicStage.status.busy = false := by
  cases found : layoutOfPattern s.cfgDemosaic.pattern with
  | none =>
    rw [Demosaic.demosaicStage_of_unsupported found]
    rfl
  | some layout =>
    rw [demosaicStage_of_supported found]
    rfl

theorem parseStage_ends (s : State) : s.parseStage.status.busy = false := by
  unfold State.parseStage
  split <;> rfl

theorem sendRequestStage_ends (s : State) : s.sendRequestStage.status.busy = false := by
  unfold State.sendRequestStage
  split_ifs
  · split <;> rfl
  · rfl

theorem linkResetStage_ends (s : State) : s.linkResetStage.status.busy = false := by
  unfold State.linkResetStage
  split_ifs
  · split <;> rfl
  · rfl

theorem linkOpenStage_ends (s : State) : s.linkOpenStage.status.busy = false := by
  unfold State.linkOpenStage
  split_ifs
  · rfl
  · split <;> rfl

theorem linkCloseStage_ends (s : State) : s.linkCloseStage.status.busy = false := by
  unfold State.linkCloseStage
  split_ifs <;> rfl

theorem accumulateStart_progress (op : s.curOp = 0x03) (fresh : s.accStarted = false) :
    Progress s s.accumulateStart := by
  unfold State.accumulateStart
  dsimp only
  split_ifs
  · exact .inl rfl
  · exact .inl rfl
  · exact .inl rfl
  · right
    rw [stagesLeft_of_start op fresh, stagesLeft_of_reading (by exact op) rfl]
    change s.cfgAcc.maxAttempts.toNat - 0 < _
    omega
  · exact .inl rfl

/-- What one read of ACCUMULATE always does, whatever the link answers and whether it ends the command. -/
structure OneRead (s t : State) : Prop where
  attempts : t.accAttempts = s.accAttempts + 1
  linkLog : t.linkLog = s.linkLog ++ [.linkRead s.missing]
  accMax : t.accMax = s.accMax
  accStarted : t.accStarted = s.accStarted

theorem accumulateRead_oneRead (s : State) : OneRead s s.accumulateRead := by
  obtain ⟨answer, rx, queue, k, answered, -⟩ := exists_readAnswered s
  cases answer with
  | none =>
    rw [accumulateRead_of_failed answered]
    exact ⟨rfl, rfl, rfl, rfl⟩
  | some chunk =>
    rw [accumulateRead_of_chunk answered]
    split_ifs <;> exact ⟨rfl, rfl, rfl, rfl⟩

theorem accumulateRead_progress (window : Window s) (op : s.curOp = 0x03) (started : s.accStarted = true) :
    Progress s s.accumulateRead := by
  have read := accumulateRead_oneRead s
  have frame := frame_accumulateRead (op := 0x03) s rfl
  have budget := window.budget
  right
  rw [stagesLeft_of_reading op started, stagesLeft_of_reading (frame.curOp.trans op) (read.accStarted.trans started),
    read.accMax, read.attempts, window_attempts window]
  omega

/-! Each stage of CAPTURE but ACC_READ ends it or goes on to the next. -/

theorem captureCheck_next (s : State) : s.captureCheck.status.busy = false ∨ s.captureCheck.capPhase = .openLink := by
  unfold State.captureCheck
  split
  · exact .inl rfl
  · exact .inr rfl

theorem captureOpen_next (s : State) : s.captureOpen.status.busy = false ∨ s.captureOpen.capPhase = .resetLink := by
  unfold State.captureOpen
  split_ifs
  · exact .inr rfl
  · split
    · exact .inl rfl
    · exact .inr rfl

theorem captureReset_next (s : State) :
    s.captureReset.status.busy = false ∨ s.captureReset.capPhase = .sendRequest := by
  unfold State.captureReset
  split
  · exact .inl rfl
  · exact .inr rfl

theorem captureSend_next (s : State) : s.captureSend.status.busy = false ∨ s.captureSend.capPhase = .accInit := by
  unfold State.captureSend
  split
  · exact .inl rfl
  · exact .inr rfl

/-- ACC_INIT latches the budget that the reads to come are counted against. -/
theorem captureAccInit_next (s : State) :
    (s.captureAccInit.status.busy = false ∨ s.captureAccInit.capPhase = .accRead) ∧
      s.captureAccInit.accMax.toNat - s.captureAccInit.accAttempts.toNat = s.cfgAcc.maxAttempts.toNat := by
  rw [captureAccInit_eq]
  split_ifs
  · refine ⟨.inl rfl, ?_⟩
    rw [failCapture_eq]
    rfl
  · exact ⟨.inr rfl, rfl⟩

theorem captureParse_next (s : State) : s.captureParse.status.busy = false ∨ s.captureParse.capPhase = .demosaic := by
  unfold State.captureParse
  split
  · exact .inl rfl
  · exact .inr rfl

theorem captureDemosaic_ends (s : State) : s.captureDemosaic.status.busy = false := by
  unfold State.captureDemosaic
  split <;> rfl

/-- A CAPTURE that goes on to a later stage has fewer steps left. -/
theorem progress_of_phase {t : State} {before after : CapPhase} (frame : Frame 0x06 s t) (op : s.curOp = 0x06)
    (current : s.capPhase = before) (next : t.capPhase = after)
    (fewer : captureStagesLeft t after < captureStagesLeft s before) : Progress s t := by
  right
  rw [stagesLeft_of_capture op current, stagesLeft_of_capture (frame.curOp.trans op) next]
  exact fewer

end

section
variable {s : State} (inv : Inv s) (busy : s.status.busy = true) (op : s.curOp = 0x06)
include inv busy op

theorem captureRead_progress (phase : s.capPhase = .accRead) : Progress s s.captureRead := by
  have window : Window s := inv.window ⟨busy, .inr ⟨op, phase⟩⟩
  have attempts := window_attempts window
  have budget := window.budget
  obtain ⟨answer, rx, queue, k, answered, -⟩ := exists_readAnswered s
  cases answer with
  | none =>
    rw [captureRead_of_failed answered]
    exact .inl rfl
  | some chunk =>
    rw [captureRead_of_chunk answered, State.headerHook_spec]
    split_ifs
    · right
      rw [stagesLeft_of_capture op phase, stagesLeft_of_capture (phase := .parse) (by exact op) rfl]
      simp only [captureStagesLeft]
      omega
    · exact .inl rfl
    · right
      rw [stagesLeft_of_capture op phase, stagesLeft_of_capture (phase := .accRead) (by exact op) (by exact phase)]
      change 2 + (s.accMax.toNat - (s.accAttempts + 1).toNat) < 2 + (s.accMax.toNat - s.accAttempts.toNat)
      omega

/-- Every stage of CAPTURE ends it or leaves it fewer steps. -/
theorem captureStep_progress {t : State} (stage : EngineStep s t) : Progress s t := by
  have frame := engineStep_frame stage
  rw [op] at frame
  have latched := congrArg CfgAcc.maxAttempts frame.cfgAcc
  have next {before after : CapPhase} (current : s.capPhase = before)
      (goes : t.status.busy = false ∨ t.capPhase = after)
      (fewer : captureStagesLeft t after < captureStagesLeft s before) : Progress s t :=
    goes.elim .inl fun phase => progress_of_phase frame op current phase fewer
  cases stage with
  | captureCheck _ phase =>
    exact next phase (captureCheck_next s) (by simp only [captureStagesLeft, latched]; omega)
  | captureOpen _ phase =>
    exact next phase (captureOpen_next s) (by simp only [captureStagesLeft, latched]; omega)
  | captureReset _ phase =>
    exact next phase (captureReset_next s) (by simp only [captureStagesLeft, latched]; omega)
  | captureSend _ phase =>
    exact next phase (captureSend_next s) (by simp only [captureStagesLeft, latched]; omega)
  | captureAccInit _ phase =>
    obtain ⟨goes, budget⟩ := captureAccInit_next s
    exact next phase goes (by simp only [captureStagesLeft, budget]; omega)
  | captureRead _ phase => exact captureRead_progress inv busy op phase
  | captureParse _ phase => exact next phase (captureParse_next s) (by simp only [captureStagesLeft]; omega)
  | captureDemosaic => exact .inl (captureDemosaic_ends s)
  | demosaic other | parse other | accumulateStart other | accumulateRead other | sendRequest other | linkReset other
  | linkOpen other | linkClose other => simp [op] at other

end

theorem engineStep_progress {s t : State} (inv : Inv s) (busy : s.status.busy = true) (stage : EngineStep s t) :
    Progress s t := by
  by_cases capture : s.curOp = 0x06
  case pos => exact captureStep_progress inv busy capture stage
  case neg =>
  cases stage with
  | demosaic => exact .inl (demosaicStage_ends s)
  | parse => exact .inl (parseStage_ends s)
  | accumulateStart op fresh => exact accumulateStart_progress op fresh
  | accumulateRead op started =>
    exact accumulateRead_progress (inv.window ⟨busy, .inl ⟨op, started⟩⟩) op started
  | sendRequest => exact .inl (sendRequestStage_ends s)
  | linkReset => exact .inl (linkResetStage_ends s)
  | linkOpen => exact .inl (linkOpenStage_ends s)
  | linkClose => exact .inl (linkCloseStage_ends s)
  | captureCheck op | captureOpen op | captureReset op | captureSend op | captureAccInit op | captureRead op
  | captureParse op | captureDemosaic op => exact absurd op capture

/-- A command ends within the steps it has left. -/
theorem run_ends (n : Nat) (s : State) (inv : Inv s) (empty : s.schedule = []) (busy : s.status.busy = true)
    (left : stagesLeft s ≤ n) :
    ∃ (k : Nat) (t : State), core.run k s = .next t ∧ t.status.busy = false ∧ 1 ≤ k ∧ k ≤ n := by
  induction n generalizing s with
  | zero =>
    have positive := stagesLeft_pos inv busy
    omega
  | succ n ih =>
    obtain ⟨t, stepped, stage⟩ := exists_engineStep empty busy inv
    cases running : t.status.busy with
    | false => exact ⟨1, t, run_one stepped, running, le_rfl, by omega⟩
    | true =>
      have fewer : stagesLeft t < stagesLeft s :=
        (engineStep_progress (inv_with_event inv s.schedule .engine) busy stage).resolve_left (by simp [running])
      have stillEmpty : t.schedule = [] := (engineStep_frame stage).schedule.trans empty
      obtain ⟨k, u, ran, ended, -, bound⟩ :=
        ih t (everyStepKeepsTheInvariant s t inv stepped) stillEmpty running (by omega)
      exact ⟨k + 1, u, (run_succ stepped k).trans ran, ended, by omega, by omega⟩

/-- Settles O18: the steps left of each command are within the bounds. -/
theorem everyCommandEnds : Obligations.EveryCommandEnds := by
  intro s inv empty busy
  obtain ⟨k, t, ran, ended, positive, bound⟩ := run_ends (stagesLeft s) s inv empty busy le_rfl
  refine ⟨k, t, ran, ended, fun notAccumulate notCapture => ?_, fun op fresh => ?_, fun op phase => ?_⟩
  · rw [stagesLeft_of_other notAccumulate notCapture] at bound
    omega
  · rwa [stagesLeft_of_start op fresh] at bound
  · rwa [stagesLeft_of_capture op phase] at bound

end Sys2Proof.Proofs.Runs
end

section
/-! Runs of an ACCUMULATE whose start step is behind it: it ends within its budget (R128), a silent link spends the
whole budget and a link that fills the window needs one read a chunk (R129). -/

namespace Sys2Proof.Proofs.Accumulation

open Sys2Proof Sys2Proof.Machine Sys2Proof.Safety Sys2Proof.Proofs.Reads Sys2Proof.Proofs.Parse
  Sys2Proof.Proofs.Frames Sys2Proof.Proofs.Invariant Sys2Proof.Proofs.Runs

/-- An ACCUMULATE has its start step behind it, and no event but the engine's is to come. -/
structure Accumulating (s : State) : Prop where
  schedule : s.schedule = []
  busy : s.status.busy = true
  curOp : s.curOp = 0x03
  started : s.accStarted = true

/-- Each step of an accumulation is one read. -/
theorem step_of_accumulating {s : State} (reading : Accumulating s) :
    step s = .next (State.accumulateRead { s with turn := .engine }) := by
  obtain ⟨empty, busy, op, started⟩ := reading
  have named : engineInstr s.curOp = some .accumulate := by
    rw [op]
    rfl
  rw [step_of_empty empty busy named, exec_accumulate, State.asCommand_engine rfl,
    accumulateStage_of_started (by exact started)]

/-! ### The budget bounds the reads (R128) -/

/-- A running accumulation ends within `n` steps when at most `n` reads are left. -/
theorem accumulation_ends (n : Nat) (s : State) (inv : Inv s) (reading : Accumulating s)
    (left : s.accMax.toNat - s.accAttempts.toNat ≤ n) :
    ∃ (k : Nat) (t : State), k ≤ s.accMax.toNat - s.accAttempts.toNat ∧ core.run k s = .next t ∧
      t.status.busy = false ∧ t.accAttempts.toNat = s.accAttempts.toNat + k ∧
      t.linkLog.length = s.linkLog.length + k := by
  have window : Window s := inv.window ⟨reading.busy, .inl ⟨reading.curOp, reading.started⟩⟩
  have budget := window.budget
  induction n generalizing s with
  | zero => omega
  | succ n ih =>
    have stepped := step_of_accumulating reading
    have read := accumulateRead_oneRead { s with turn := .engine }
    have frame := frame_accumulateRead (op := 0x03) { s with turn := .engine } rfl
    generalize State.accumulateRead { s with turn := .engine } = t at stepped read frame
    have counted : t.accAttempts.toNat = s.accAttempts.toNat + 1 :=
      (congrArg BitVec.toNat read.attempts).trans (window_attempts (s := s) window)
    have logged : t.linkLog.length = s.linkLog.length + 1 := by simp [read.linkLog]
    have latched : t.accMax = s.accMax := read.accMax
    cases running : t.status.busy with
    | false => exact ⟨1, t, by omega, run_one stepped, running, counted, logged⟩
    | true =>
      have next : Accumulating t :=
        ⟨frame.schedule.trans reading.schedule, running, frame.curOp.trans reading.curOp,
          read.accStarted.trans reading.started⟩
      have nextInv := everyStepKeepsTheInvariant s t inv stepped
      have nextWindow : Window t := nextInv.window ⟨running, .inl ⟨next.curOp, next.started⟩⟩
      obtain ⟨k, u, bound, ran, ended, attempts, log⟩ :=
        ih t nextInv next (by rw [latched]; omega) nextWindow nextWindow.budget
      rw [latched] at bound
      exact ⟨k + 1, u, by omega, (run_succ stepped k).trans ran, ended, by omega, by omega⟩

/-- Settles O44: by induction on the reads the budget has left. -/
theorem accumulateEndsWithinItsBudget : Obligations.AccumulateEndsWithinItsBudget := by
  intro s inv empty busy op started
  exact accumulation_ends _ s inv ⟨empty, busy, op, started⟩ le_rfl

/-! ### The reads of a link that says what it sends -/

/-- A chunk within the missing bytes is given whole when the device holds nothing else. -/
theorem readAnswered_of_chunk {s : State} {chunk : List Byte} {rx : List RxItem} (queue : s.linkQueue = [])
    (said : s.linkRx = .chunk chunk :: rx) (short : chunk.length ≤ s.missing) :
    ReadAnswered s (some chunk) rx [] s.draws := by
  rw [ReadAnswered, State.linkRead_chunk said, queue, List.nil_append, List.take_of_length_le short,
    List.drop_of_length_le short]
  rfl

/-- A read that does not end the command leaves it accumulating. -/
theorem accumulating_readAppended {s : State} (reading : Accumulating s) (chunk : List Byte) (rx : List RxItem)
    (queue : List Byte) (k : Nat) : Accumulating (readAppended { s with turn := .engine } chunk rx queue k) :=
  ⟨reading.schedule, reading.busy, reading.curOp, reading.started⟩

/-! ### A silent link (R129) -/

/-- An accumulation that has received nothing, has `n` reads left and is to be given no byte by any of them. -/
structure Silent (n : Nat) (rest : List RxItem) (s : State) : Prop extends Accumulating s where
  count : s.accCount = 0
  expected : s.accExpected ≠ 0
  queue : s.linkQueue = []
  rx : s.linkRx = List.replicate n (.chunk []) ++ rest
  attempts : s.accAttempts.toNat + n = s.accMax.toNat

/-- The end of an accumulation that has received nothing. -/
structure TimedOut (s t : State) : Prop where
  ended : t.status.busy = false
  err : t.status.err = .acquisitionTimeout
  count : t.accCount = 0
  attempts : t.accAttempts = s.accMax.setWidth 32
  info0 : t.errInfo0 = 0
  info1 : t.errInfo1 = s.accExpected
  bytes : ∀ space addr, t.peek space addr = s.peek space addr

/-- The state after a read that brings no byte. -/
def emptyRead (n : Nat) (rest : List RxItem) (s : State) : State :=
  readAppended { s with turn := .engine } [] (List.replicate n (.chunk []) ++ rest) [] s.draws

theorem emptyRead_peek (n : Nat) (rest : List RxItem) (s : State) (space : Space) (addr : Nat) :
    (emptyRead n rest s).peek space addr = s.peek space addr := by
  rw [emptyRead, readAppended_peek, peek_poke_outside _ (by simp)]
  rfl

section
variable {n : Nat} {rest : List RxItem} {s : State} (silent : Silent (n + 1) rest s)
include silent

theorem emptyRead_count : (emptyRead n rest s).accCount = 0 := by
  change s.accCount + 0 = 0
  rw [silent.count]
  rfl

/-- A silent read ends the command when it was the last of the budget. -/
theorem step_of_silent :
    step s = .next
      (if s.accAttempts + 1 = s.accMax.setWidth 32 then
        (emptyRead n rest s).finish .acquisitionTimeout 0 s.accExpected
      else emptyRead n rest s) := by
  have answered := readAnswered_of_chunk (s := { s with turn := .engine }) silent.queue silent.rx (Nat.zero_le _)
  have count := emptyRead_count silent
  have missing : ¬(emptyRead n rest s).accCount = s.accExpected := fun full =>
    silent.expected (full.symm.trans count)
  rw [step_of_accumulating silent.toAccumulating, accumulateRead_of_chunk answered]
  refine congrArg _ ((if_neg missing).trans ?_)
  change (if s.accAttempts + 1 = _ then (emptyRead n rest s).finish _ (emptyRead n rest s).accCount _ else _) = _
  rw [count]
  rfl

theorem silent_attempts : (s.accAttempts + 1).toNat = s.accAttempts.toNat + 1 := by
  have attempts := silent.attempts
  exact toNat_add_ofNat (n := 1) (by omega)

theorem spent_iff_of_silent : s.accAttempts + 1 = s.accMax.setWidth 32 ↔ n = 0 := by
  have attempts := silent.attempts
  rw [← BitVec.toNat_inj, silent_attempts silent, BitVec.toNat_setWidth, Nat.mod_eq_of_lt (by omega)]
  omega

end

theorem silent_emptyRead {n : Nat} {rest : List RxItem} {s : State} (silent : Silent (n + 1) rest s) :
    Silent n rest (emptyRead n rest s) where
  toAccumulating := accumulating_readAppended silent.toAccumulating ..
  count := emptyRead_count silent
  expected := silent.expected
  queue := rfl
  rx := rfl
  attempts := by
    have attempts := silent.attempts
    change (s.accAttempts + 1).toNat + n = s.accMax.toNat
    rw [silent_attempts silent]
    omega

/-- The last read of the budget times out. -/
theorem timedOut_of_last {rest : List RxItem} {s : State} (silent : Silent 1 rest s) :
    ∃ t, step s = .next t ∧ TimedOut s t := by
  have spent := (spent_iff_of_silent silent).2 rfl
  refine ⟨_, (step_of_silent silent).trans (congrArg _ (if_pos spent)), rfl, rfl, emptyRead_count silent, spent, rfl,
    rfl, fun space addr => ?_⟩
  rw [finish_peek, emptyRead_peek]

theorem timedOut_of_emptyRead {n : Nat} {rest : List RxItem} {s t : State}
    (timedOut : TimedOut (emptyRead n rest s) t) : TimedOut s t where
  ended := timedOut.ended
  err := timedOut.err
  count := timedOut.count
  attempts := timedOut.attempts
  info0 := timedOut.info0
  info1 := timedOut.info1
  bytes := fun space addr => (timedOut.bytes space addr).trans (emptyRead_peek ..)

/-- With `n + 1` silent reads left the command runs for `n` more steps and times out at the next. -/
theorem run_of_silent (n : Nat) (rest : List RxItem) (s : State) (silent : Silent (n + 1) rest s) :
    (∀ k ≤ n, ∃ t, core.run k s = .next t ∧ t.status.busy = true) ∧
      ∃ t, core.run (n + 1) s = .next t ∧ TimedOut s t := by
  induction n generalizing s with
  | zero =>
    obtain ⟨t, stepped, timedOut⟩ := timedOut_of_last silent
    refine ⟨fun k bound => ?_, t, run_one stepped, timedOut⟩
    obtain rfl : k = 0 := by omega
    exact ⟨s, rfl, silent.busy⟩
  | succ n ih =>
    have left := mt (spent_iff_of_silent silent).1 (Nat.succ_ne_zero n)
    have stepped : step s = .next (emptyRead (n + 1) rest s) :=
      (step_of_silent silent).trans (congrArg _ (if_neg left))
    obtain ⟨running, t, ran, timedOut⟩ := ih _ (silent_emptyRead silent)
    refine ⟨fun k bound => ?_, t, (run_succ stepped _).trans ran, timedOut_of_emptyRead timedOut⟩
    cases k with
    | zero => exact ⟨s, rfl, silent.busy⟩
    | succ k =>
      obtain ⟨u, reached, busy⟩ := running k (by omega)
      exact ⟨u, (run_succ stepped k).trans reached, busy⟩

/-- Settles O45: every read of the budget is silent. -/
theorem silentLinkTimesOutAfterExactlyTheBudget : Obligations.SilentLinkTimesOutAfterExactlyTheBudget := by
  intro s rest empty busy op started count attempts expected positive queue rx
  obtain ⟨n, budget⟩ : ∃ n, s.accMax.toNat = n + 1 :=
    Nat.exists_eq_succ_of_ne_zero fun zero => positive (BitVec.eq_of_toNat_eq zero)
  rw [budget] at rx ⊢
  have silent : Silent (n + 1) rest s :=
    { schedule := empty, busy, curOp := op, started, count, expected, queue, rx
      attempts := by simp [attempts, budget] }
  obtain ⟨running, t, ran, timedOut⟩ := run_of_silent n rest s silent
  exact ⟨fun k bound => running k (by omega), t, ran, timedOut.ended, timedOut.err, timedOut.count, timedOut.attempts,
    timedOut.info0, timedOut.info1, timedOut.bytes⟩

/-! ### A link that fills the window (R129) -/

/-- Two blocks one behind the other are one block. -/
theorem peek_poke_append (s : State) (space other : Space) (base : Nat) (front back : List Byte) (addr : Nat) :
    ((s.poke space base front).poke space (base + front.length) back).peek other addr =
      (s.poke space base (front ++ back)).peek other addr := by
  by_cases same : other = space
  case neg => simp [State.peek_poke, same]
  subst same
  rcases Nat.lt_or_ge addr (base + front.length) with before | behind
  · rw [peek_poke_outside _ (by omega), State.peek_poke, State.peek_poke]
    by_cases low : base ≤ addr
    · have inFront : addr - base < front.length := by omega
      simp [low, inFront, Nat.lt_add_right]
    · simp [low]
  · obtain ⟨i, rfl⟩ := Nat.exists_eq_add_of_le behind
    have inBack : base + (front.length + i) - (base + front.length) = i := by omega
    simp [State.peek_poke, Nat.add_assoc, inBack]

/-- An accumulation that is to be given `chunks`, which fill its window within its budget. -/
structure Filling (chunks : List (List Byte)) (s : State) : Prop extends Accumulating s where
  nonempty : ∀ chunk ∈ chunks, chunk ≠ []
  queue : s.linkQueue = []
  rx : s.linkRx = chunks.map .chunk
  total : s.accCount.toNat + chunks.flatten.length = s.accExpected.toNat
  attempts : s.accAttempts.toNat + chunks.length ≤ s.accMax.toNat
  room : s.frameLen.toNat + chunks.flatten.length ≤ Config.frameCap

/-- The end of an accumulation that was given `chunks`. -/
structure Filled (chunks : List (List Byte)) (s t : State) : Prop where
  ended : t.status.busy = false
  err : t.status.err = .none
  count : t.accCount = s.accExpected
  attempts : t.accAttempts = s.accAttempts + BitVec.ofNat 32 chunks.length
  frameLen : t.frameLen = s.frameLen + BitVec.ofNat 32 chunks.flatten.length
  bytes : ∀ space addr, t.peek space addr = (s.poke .frame s.frameLen.toNat chunks.flatten).peek space addr

/-- The state after a read that brings one chunk. -/
def chunkRead (chunk : List Byte) (chunks : List (List Byte)) (s : State) : State :=
  readAppended { s with turn := .engine } chunk (chunks.map .chunk) [] s.draws

theorem chunkRead_peek (chunk : List Byte) (chunks : List (List Byte)) (s : State) (space : Space) (addr : Nat) :
    (chunkRead chunk chunks s).peek space addr = (s.poke .frame s.frameLen.toNat chunk).peek space addr := by
  rw [chunkRead, readAppended_peek]
  exact State.peek_congr (by cases space <;> rfl) addr

/-- A list of nonempty chunks has no byte exactly when it has no chunk. -/
theorem flatten_length_eq_zero_iff {chunks : List (List Byte)} (nonempty : ∀ chunk ∈ chunks, chunk ≠ []) :
    chunks.flatten.length = 0 ↔ chunks = [] := by
  rw [List.length_eq_zero_iff, List.flatten_eq_nil_iff]
  refine ⟨fun none => List.eq_nil_iff_forall_not_mem.2 fun chunk mem => nonempty chunk mem (none chunk mem), ?_⟩
  rintro rfl chunk mem
  cases mem

section
variable {chunk : List Byte} {chunks : List (List Byte)} {s : State} (filling : Filling (chunk :: chunks) s)
include filling

theorem filling_length : chunk.length + chunks.flatten.length = s.accExpected.toNat - s.accCount.toNat := by
  have total := filling.total
  rw [List.flatten_cons, List.length_append] at total
  omega

theorem chunkRead_count :
    (chunkRead chunk chunks s).accCount.toNat = s.accCount.toNat + chunk.length := by
  have total := filling.total
  have length := filling_length filling
  exact toNat_add_ofNat (x := s.accCount) (by omega)

theorem chunkRead_attempts : (chunkRead chunk chunks s).accAttempts.toNat = s.accAttempts.toNat + 1 := by
  have attempts := filling.attempts
  rw [List.length_cons] at attempts
  exact toNat_add_ofNat (x := s.accAttempts) (n := 1) (by omega)

theorem chunkRead_frameLen : (chunkRead chunk chunks s).frameLen.toNat = s.frameLen.toNat + chunk.length := by
  have room := filling.room
  rw [List.flatten_cons, List.length_append, Config.frameCap] at room
  exact toNat_add_ofNat (x := s.frameLen) (by omega)

/-- The window is full after the last chunk and not before. -/
theorem chunkRead_full_iff : (chunkRead chunk chunks s).accCount = s.accExpected ↔ chunks = [] := by
  have total := filling.total
  have length := filling_length filling
  have rest := flatten_length_eq_zero_iff fun next mem => filling.nonempty next (List.mem_cons_of_mem chunk mem)
  rw [← BitVec.toNat_inj, chunkRead_count filling, ← rest]
  omega

/-- While chunks are to come the budget is not spent. -/
theorem chunkRead_left (more : chunks ≠ []) : s.accAttempts + 1 ≠ s.accMax.setWidth 32 := by
  intro spent
  have counted := chunkRead_attempts filling
  have attempts := filling.attempts
  have positive := List.length_pos_iff.2 more
  rw [List.length_cons] at attempts
  change (s.accAttempts + 1).toNat = _ at counted
  rw [spent, BitVec.toNat_setWidth, Nat.mod_eq_of_lt (by omega)] at counted
  omega

theorem step_of_filling :
    step s = .next (if chunks = [] then (chunkRead chunk chunks s).finish .none 0 0 else chunkRead chunk chunks s) := by
  have length := filling_length filling
  have answered := readAnswered_of_chunk (s := { s with turn := .engine }) filling.queue filling.rx
    (by change chunk.length ≤ s.accExpected.toNat - s.accCount.toNat; omega)
  rw [step_of_accumulating filling.toAccumulating, accumulateRead_of_chunk answered]
  refine congrArg _ ?_
  by_cases last : chunks = []
  · rw [if_pos last]
    exact if_pos ((chunkRead_full_iff filling).2 last)
  · rw [if_neg last]
    exact (if_neg (mt (chunkRead_full_iff filling).1 last)).trans (if_neg (chunkRead_left filling last))

theorem filling_chunkRead : Filling chunks (chunkRead chunk chunks s) where
  toAccumulating := accumulating_readAppended filling.toAccumulating ..
  nonempty := fun next mem => filling.nonempty next (List.mem_cons_of_mem chunk mem)
  queue := rfl
  rx := rfl
  total := by
    have total := filling.total
    have length := filling_length filling
    change _ = s.accExpected.toNat
    rw [chunkRead_count filling]
    omega
  attempts := by
    have attempts := filling.attempts
    rw [List.length_cons] at attempts
    change _ ≤ s.accMax.toNat
    rw [chunkRead_attempts filling]
    omega
  room := by
    have room := filling.room
    rw [List.flatten_cons, List.length_append] at room
    rw [chunkRead_frameLen filling]
    omega

/-- What the chunks behind the first fill is filled by all of them. -/
theorem filled_of_chunkRead {t : State} (filled : Filled chunks (chunkRead chunk chunks s) t) :
    Filled (chunk :: chunks) s t where
  ended := filled.ended
  err := filled.err
  count := filled.count
  attempts := by
    rw [filled.attempts, List.length_cons, Nat.add_comm, BitVec.ofNat_add, ← BitVec.add_assoc]
    rfl
  frameLen := by
    rw [filled.frameLen, List.flatten_cons, List.length_append, BitVec.ofNat_add, ← BitVec.add_assoc]
    rfl
  bytes := fun space addr => by
    rw [filled.bytes, chunkRead_frameLen filling, List.flatten_cons, ← peek_poke_append, State.peek_poke,
      State.peek_poke (s.poke _ _ _), chunkRead_peek]

end

/-- The last chunk ends the command with success. -/
theorem filled_of_last {chunk : List Byte} {s : State} (filling : Filling [chunk] s) :
    Filled [chunk] s ((chunkRead chunk [] s).finish .none 0 0) where
  ended := rfl
  err := rfl
  count := (chunkRead_full_iff filling).2 rfl
  attempts := rfl
  frameLen := by
    rw [List.flatten_singleton]
    rfl
  bytes := fun space addr => by rw [finish_peek, chunkRead_peek, List.flatten_singleton]

/-- Chunks that fill the window end the command in one read each. -/
theorem run_of_filling (chunks : List (List Byte)) (chunk : List Byte) (s : State)
    (filling : Filling (chunk :: chunks) s) :
    ∃ t, core.run (chunks.length + 1) s = .next t ∧ Filled (chunk :: chunks) s t := by
  have stepped := step_of_filling filling
  induction chunks generalizing chunk s with
  | nil =>
    rw [if_pos rfl] at stepped
    exact ⟨_, run_one stepped, filled_of_last filling⟩
  | cons next chunks ih =>
    rw [if_neg (List.cons_ne_nil next chunks)] at stepped
    have rest := filling_chunkRead filling
    obtain ⟨t, ran, filled⟩ := ih next _ rest (step_of_filling rest)
    exact ⟨t, (run_succ stepped _).trans ran, filled_of_chunkRead filling filled⟩

/-- Settles O46: by induction on the chunks, the bytes of each behind those before it. -/
theorem chunkedLinkFillsTheWindow : Obligations.ChunkedLinkFillsTheWindow := by
  intro s chunks empty busy op started count attempts some nonempty total budget room queue rx
  obtain ⟨chunk, chunks, rfl⟩ := List.exists_cons_of_ne_nil some
  have filling : Filling (chunk :: chunks) s :=
    { schedule := empty, busy, curOp := op, started, nonempty, queue, rx
      total := by
        rw [total, count]
        exact Nat.zero_add _
      attempts := by simpa [attempts] using budget
      room := by rwa [total] }
  obtain ⟨t, ran, filled⟩ := run_of_filling chunks chunk s filling
  refine ⟨t, ran, filled.ended, filled.err, filled.count, ?_, ?_, fun i inside => ?_⟩
  · rw [filled.attempts, attempts]
    exact BitVec.zero_add _
  · rw [filled.frameLen, total, BitVec.ofNat_toNat, BitVec.setWidth_eq]
  · rw [← total] at inside
    rw [filled.bytes, peek_poke_inside s .frame _ inside, List.getElem?_eq_getElem inside]

end Sys2Proof.Proofs.Accumulation
end
